-- ==== Sys2Proof/Word.lean ====
section
/-! DEFINITION. Word.lean: the two widths of the CORE and their plainest arithmetic (00_scope.md R5, R6). -/

namespace Sys2Proof

/-- "A byte is an unsigned 8-bit value" (00_scope.md R5). -/
abbrev Byte := BitVec 8

/-- "A word is an unsigned 16-bit value" (00_scope.md R5); addresses and the program counter are words. -/
abbrev Word := BitVec 16

/-- `add16(a, b) = (a + b) mod 65536` (00_scope.md R6): the only arithmetic on PC and on addresses. -/
abbrev add16 (a b : Word) : Word := a + b

/-- `zext_N(v)` (00_scope.md R6). -/
abbrev zext {w : Nat} (n : Nat) (v : BitVec w) : BitVec n := v.setWidth n

/-- `sext_N(v)` (00_scope.md R6: "defined for completeness", no rule uses it). -/
abbrev sext {w : Nat} (n : Nat) (v : BitVec w) : BitVec n := v.signExtend n

end Sys2Proof
end

