-- ==== Sys2Proof/Config.lean ====
section
/-! DEFINITION. Config.lean: the implementation parameters of 00_scope.md R4 that other files name. Every one has
the value the spec gives it; nothing is free (93_implementation_defined.md, end of part 1). The two opcode tables,
which R78 also calls configuration, stand in Decode.lean. -/

namespace Sys2Proof

/-- MEM_SIZE: addresses 0x0000 to 0xFFFE are backed (00_scope.md R4; 20_memory.md R40). -/
def Config.memSize : Nat := 65535

/-- PREFIX_BYTE (00_scope.md R4; 30_encoding.md R69). -/
def Config.prefixByte : Byte := 0xCB

/-- RESET_PC (00_scope.md R4; 70_reset_and_hazards.md R190). -/
def Config.resetPc : Word := 0x0000

/-- RESET_REGS (00_scope.md R4): every general register after Construct. -/
def Config.resetReg : Byte := 0x00

/-- RESET_MEM (00_scope.md R4): every backed byte after Construct, hence what an unlisted address reads as
(log 6). -/
def Config.resetByte : Byte := 0x00

end Sys2Proof
end

