-- ==== Sys2Proof/Syntax.lean ====
section
/-! DEFINITION. Syntax.lean: the operand selectors and the closed Instruction variant of 30_encoding.md R77,
and `Instr`, one constructor for each row of spec/opcode_table.json. -/

namespace Sys2Proof

/-- The seven general registers an operand can name (10_state.md R11; F is never an operand, R12). -/
inductive Reg where
  | a | b | c | d | e | h | l
  deriving DecidableEq, Repr

/-- The register pairs, named high register first (10_state.md R16). There is no AF pair. -/
inductive Pair where
  | bc | de | hl
  deriving DecidableEq, Repr

/-- `LoadTarget` of 30_encoding.md R77: where a load writes. -/
inductive LoadTarget where
  | reg (r : Reg)
  | memHL
  deriving DecidableEq, Repr

/-- `LoadSource` of 30_encoding.md R77: where a load reads. `imm8` carries no byte: the byte is read from
memory during Execute (R65). -/
inductive LoadSource where
  | reg (r : Reg)
  | memHL
  | imm8
  deriving DecidableEq, Repr

/-- `JumpCond` of 30_encoding.md R77. -/
inductive JumpCond where
  | always | zero | notZero | carry | notCarry
  deriving DecidableEq, Repr

/-- `Instruction` of 30_encoding.md R77, the closed variant the decoder maps opcodes to: 84 values, of
which `ld memHL memHL` has no opcode (42_ld.md R126). -/
inductive Instruction where
  | add (operand : Reg)
  | ld (target : LoadTarget) (source : LoadSource)
  | jp (cond : JumpCond)
  deriving DecidableEq, Repr

/-- One constructor for each row of spec/opcode_table.json. An instruction carries no operand byte: d8 and a16
are read from memory during Execute (30_encoding.md R65, R66), and an untaken jump reads none (43_jp.md R148).
`prefixCB` is the row of the prefix marker 0xCB with the byte that follows it (R69). -/
inductive Instr where
  /-- PREFIX CB, opcode 0xCB (R69). -/
  | prefixCB (opcode2 : Byte)
  /-- LD B,d8, opcode 0x06 (R124). -/
  | ldBImm
  /-- LD C,d8, opcode 0x0E (R124). -/
  | ldCImm
  /-- LD D,d8, opcode 0x16 (R124). -/
  | ldDImm
  /-- LD E,d8, opcode 0x1E (R124). -/
  | ldEImm
  /-- LD H,d8, opcode 0x26 (R124). -/
  | ldHImm
  /-- LD L,d8, opcode 0x2E (R124). -/
  | ldLImm
  /-- LD (HL),d8, opcode 0x36 (R125). -/
  | ldMemImm
  /-- LD A,d8, opcode 0x3E (R124). -/
  | ldAImm
  /-- LD B,B, opcode 0x40 (R121). -/
  | ldBB
  /-- LD B,C, opcode 0x41 (R121). -/
  | ldBC
  /-- LD B,D, opcode 0x42 (R121). -/
  | ldBD
  /-- LD B,E, opcode 0x43 (R121). -/
  | ldBE
  /-- LD B,H, opcode 0x44 (R121). -/
  | ldBH
  /-- LD B,L, opcode 0x45 (R121). -/
  | ldBL
  /-- LD B,(HL), opcode 0x46 (R122). -/
  | ldBMem
  /-- LD B,A, opcode 0x47 (R121). -/
  | ldBA
  /-- LD C,B, opcode 0x48 (R121). -/
  | ldCB
  /-- LD C,C, opcode 0x49 (R121). -/
  | ldCC
  /-- LD C,D, opcode 0x4A (R121). -/
  | ldCD
  /-- LD C,E, opcode 0x4B (R121). -/
  | ldCE
  /-- LD C,H, opcode 0x4C (R121). -/
  | ldCH
  /-- LD C,L, opcode 0x4D (R121). -/
  | ldCL
  /-- LD C,(HL), opcode 0x4E (R122). -/
  | ldCMem
  /-- LD C,A, opcode 0x4F (R121). -/
  | ldCA
  /-- LD D,B, opcode 0x50 (R121). -/
  | ldDB
  /-- LD D,C, opcode 0x51 (R121). -/
  | ldDC
  /-- LD D,D, opcode 0x52 (R121). -/
  | ldDD
  /-- LD D,E, opcode 0x53 (R121). -/
  | ldDE
  /-- LD D,H, opcode 0x54 (R121). -/
  | ldDH
  /-- LD D,L, opcode 0x55 (R121). -/
  | ldDL
  /-- LD D,(HL), opcode 0x56 (R122). -/
  | ldDMem
  /-- LD D,A, opcode 0x57 (R121). -/
  | ldDA
  /-- LD E,B, opcode 0x58 (R121). -/
  | ldEB
  /-- LD E,C, opcode 0x59 (R121). -/
  | ldEC
  /-- LD E,D, opcode 0x5A (R121). -/
  | ldED
  /-- LD E,E, opcode 0x5B (R121). -/
  | ldEE
  /-- LD E,H, opcode 0x5C (R121). -/
  | ldEH
  /-- LD E,L, opcode 0x5D (R121). -/
  | ldEL
  /-- LD E,(HL), opcode 0x5E (R122). -/
  | ldEMem
  /-- LD E,A, opcode 0x5F (R121). -/
  | ldEA
  /-- LD H,B, opcode 0x60 (R121). -/
  | ldHB
  /-- LD H,C, opcode 0x61 (R121). -/
  | ldHC
  /-- LD H,D, opcode 0x62 (R121). -/
  | ldHD
  /-- LD H,E, opcode 0x63 (R121). -/
  | ldHE
  /-- LD H,H, opcode 0x64 (R121). -/
  | ldHH
  /-- LD H,L, opcode 0x65 (R121). -/
  | ldHL
  /-- LD H,(HL), opcode 0x66 (R122). -/
  | ldHMem
  /-- LD H,A, opcode 0x67 (R121). -/
  | ldHA
  /-- LD L,B, opcode 0x68 (R121). -/
  | ldLB
  /-- LD L,C, opcode 0x69 (R121). -/
  | ldLC
  /-- LD L,D, opcode 0x6A (R121). -/
  | ldLD
  /-- LD L,E, opcode 0x6B (R121). -/
  | ldLE
  /-- LD L,H, opcode 0x6C (R121). -/
  | ldLH
  /-- LD L,L, opcode 0x6D (R121). -/
  | ldLL
  /-- LD L,(HL), opcode 0x6E (R122). -/
  | ldLMem
  /-- LD L,A, opcode 0x6F (R121). -/
  | ldLA
  /-- LD (HL),B, opcode 0x70 (R123). -/
  | ldMemB
  /-- LD (HL),C, opcode 0x71 (R123). -/
  | ldMemC
  /-- LD (HL),D, opcode 0x72 (R123). -/
  | ldMemD
  /-- LD (HL),E, opcode 0x73 (R123). -/
  | ldMemE
  /-- LD (HL),H, opcode 0x74 (R123). -/
  | ldMemH
  /-- LD (HL),L, opcode 0x75 (R123). -/
  | ldMemL
  /-- LD (HL),A, opcode 0x77 (R123). -/
  | ldMemA
  /-- LD A,B, opcode 0x78 (R121). -/
  | ldAB
  /-- LD A,C, opcode 0x79 (R121). -/
  | ldAC
  /-- LD A,D, opcode 0x7A (R121). -/
  | ldAD
  /-- LD A,E, opcode 0x7B (R121). -/
  | ldAE
  /-- LD A,H, opcode 0x7C (R121). -/
  | ldAH
  /-- LD A,L, opcode 0x7D (R121). -/
  | ldAL
  /-- LD A,(HL), opcode 0x7E (R122). -/
  | ldAMem
  /-- LD A,A, opcode 0x7F (R121). -/
  | ldAA
  /-- ADD A,B, opcode 0x80 (R102). -/
  | addAB
  /-- ADD A,C, opcode 0x81 (R103). -/
  | addAC
  /-- ADD A,D, opcode 0x82 (R104). -/
  | addAD
  /-- ADD A,E, opcode 0x83 (R105). -/
  | addAE
  /-- ADD A,H, opcode 0x84 (R106). -/
  | addAH
  /-- ADD A,L, opcode 0x85 (R107). -/
  | addAL
  /-- ADD A,A, opcode 0x87 (R108). -/
  | addAA
  /-- JP NZ,a16, opcode 0xC2 (R143). -/
  | jpNZ
  /-- JP a16, opcode 0xC3 (R142). -/
  | jp
  /-- JP Z,a16, opcode 0xCA (R144). -/
  | jpZ
  /-- JP NC,a16, opcode 0xD2 (R145). -/
  | jpNC
  /-- JP C,a16, opcode 0xDA (R146). -/
  | jpC
  deriving DecidableEq, Repr

/-- The value of R77 a table row stands for: the column "instruction" of spec/opcode_table.json, which is
null for the prefix marker alone. -/
def Instr.instruction : Instr → Option Instruction
  | .prefixCB _ => none
  | .ldBImm => some (.ld (.reg .b) .imm8)
  | .ldCImm => some (.ld (.reg .c) .imm8)
  | .ldDImm => some (.ld (.reg .d) .imm8)
  | .ldEImm => some (.ld (.reg .e) .imm8)
  | .ldHImm => some (.ld (.reg .h) .imm8)
  | .ldLImm => some (.ld (.reg .l) .imm8)
  | .ldMemImm => some (.ld .memHL .imm8)
  | .ldAImm => some (.ld (.reg .a) .imm8)
  | .ldBB => some (.ld (.reg .b) (.reg .b))
  | .ldBC => some (.ld (.reg .b) (.reg .c))
  | .ldBD => some (.ld (.reg .b) (.reg .d))
  | .ldBE => some (.ld (.reg .b) (.reg .e))
  | .ldBH => some (.ld (.reg .b) (.reg .h))
  | .ldBL => some (.ld (.reg .b) (.reg .l))
  | .ldBMem => some (.ld (.reg .b) .memHL)
  | .ldBA => some (.ld (.reg .b) (.reg .a))
  | .ldCB => some (.ld (.reg .c) (.reg .b))
  | .ldCC => some (.ld (.reg .c) (.reg .c))
  | .ldCD => some (.ld (.reg .c) (.reg .d))
  | .ldCE => some (.ld (.reg .c) (.reg .e))
  | .ldCH => some (.ld (.reg .c) (.reg .h))
  | .ldCL => some (.ld (.reg .c) (.reg .l))
  | .ldCMem => some (.ld (.reg .c) .memHL)
  | .ldCA => some (.ld (.reg .c) (.reg .a))
  | .ldDB => some (.ld (.reg .d) (.reg .b))
  | .ldDC => some (.ld (.reg .d) (.reg .c))
  | .ldDD => some (.ld (.reg .d) (.reg .d))
  | .ldDE => some (.ld (.reg .d) (.reg .e))
  | .ldDH => some (.ld (.reg .d) (.reg .h))
  | .ldDL => some (.ld (.reg .d) (.reg .l))
  | .ldDMem => some (.ld (.reg .d) .memHL)
  | .ldDA => some (.ld (.reg .d) (.reg .a))
  | .ldEB => some (.ld (.reg .e) (.reg .b))
  | .ldEC => some (.ld (.reg .e) (.reg .c))
  | .ldED => some (.ld (.reg .e) (.reg .d))
  | .ldEE => some (.ld (.reg .e) (.reg .e))
  | .ldEH => some (.ld (.reg .e) (.reg .h))
  | .ldEL => some (.ld (.reg .e) (.reg .l))
  | .ldEMem => some (.ld (.reg .e) .memHL)
  | .ldEA => some (.ld (.reg .e) (.reg .a))
  | .ldHB => some (.ld (.reg .h) (.reg .b))
  | .ldHC => some (.ld (.reg .h) (.reg .c))
  | .ldHD => some (.ld (.reg .h) (.reg .d))
  | .ldHE => some (.ld (.reg .h) (.reg .e))
  | .ldHH => some (.ld (.reg .h) (.reg .h))
  | .ldHL => some (.ld (.reg .h) (.reg .l))
  | .ldHMem => some (.ld (.reg .h) .memHL)
  | .ldHA => some (.ld (.reg .h) (.reg .a))
  | .ldLB => some (.ld (.reg .l) (.reg .b))
  | .ldLC => some (.ld (.reg .l) (.reg .c))
  | .ldLD => some (.ld (.reg .l) (.reg .d))
  | .ldLE => some (.ld (.reg .l) (.reg .e))
  | .ldLH => some (.ld (.reg .l) (.reg .h))
  | .ldLL => some (.ld (.reg .l) (.reg .l))
  | .ldLMem => some (.ld (.reg .l) .memHL)
  | .ldLA => some (.ld (.reg .l) (.reg .a))
  | .ldMemB => some (.ld .memHL (.reg .b))
  | .ldMemC => some (.ld .memHL (.reg .c))
  | .ldMemD => some (.ld .memHL (.reg .d))
  | .ldMemE => some (.ld .memHL (.reg .e))
  | .ldMemH => some (.ld .memHL (.reg .h))
  | .ldMemL => some (.ld .memHL (.reg .l))
  | .ldMemA => some (.ld .memHL (.reg .a))
  | .ldAB => some (.ld (.reg .a) (.reg .b))
  | .ldAC => some (.ld (.reg .a) (.reg .c))
  | .ldAD => some (.ld (.reg .a) (.reg .d))
  | .ldAE => some (.ld (.reg .a) (.reg .e))
  | .ldAH => some (.ld (.reg .a) (.reg .h))
  | .ldAL => some (.ld (.reg .a) (.reg .l))
  | .ldAMem => some (.ld (.reg .a) .memHL)
  | .ldAA => some (.ld (.reg .a) (.reg .a))
  | .addAB => some (.add .b)
  | .addAC => some (.add .c)
  | .addAD => some (.add .d)
  | .addAE => some (.add .e)
  | .addAH => some (.add .h)
  | .addAL => some (.add .l)
  | .addAA => some (.add .a)
  | .jpNZ => some (.jp .notZero)
  | .jp => some (.jp .always)
  | .jpZ => some (.jp .zero)
  | .jpNC => some (.jp .notCarry)
  | .jpC => some (.jp .carry)

end Sys2Proof
end

