-- ==== Sys2Proof/Machine/State.lean ====
section
/-! DEFINITION. Machine/State.lean: the whole architectural state of one CORE (10_state.md R10: "and nothing
else"), the reasons a Step can stop, and the state after Construct. -/

namespace Sys2Proof.Machine

/-- The flags register F: four independent booleans (10_state.md R17). -/
structure Flags where
  z : Bool
  n : Bool
  h : Bool
  c : Bool
  deriving DecidableEq, Repr

/-- Memory as (address, byte) pairs; an address that is not listed reads as `Config.resetByte` (log 6). The
canonical form is `Memory.wf` of Machine/Ops.lean. -/
abbrev Memory := List Host.Cell

/-- The state of 10_state.md R10. -/
structure State where
  a : Byte
  b : Byte
  c : Byte
  d : Byte
  e : Byte
  h : Byte
  l : Byte
  f : Flags
  pc : Word
  mem : Memory
  deriving DecidableEq, Repr

/-- The two faults of 60_exceptions.md R160. Both are fatal and leave the state as it was (R86, R165). -/
inductive Fault where
  /-- Raised at Decode by an opcode byte without an entry in the table it is looked up in, and by the row of the
  prefix marker (60_exceptions.md R161). The spec's own behaviour; safe. -/
  | unrecognizedOpcode (byte : Byte) (isPrefixed : Bool)
  /-- Raised in Fetch or Execute by a read or a write of an address that is not backed (60_exceptions.md R163; the
  spec's decision D1, log 2). Safe: nothing is claimed of what would follow. -/
  | addressFault (addr : Word)
  deriving DecidableEq, Repr

/-- Why a model has no meaning for an instruction. -/
inductive Refusal where
  /-- An arm of `exec` without a meaning. No arm is left so; safe. -/
  | notModelled (mnemonic : String)
  deriving DecidableEq, Repr

/-- The flags after Construct: all false (10_state.md R29). -/
def Flags.reset : Flags := { z := false, n := false, h := false, c := false }

/-- Construct, the only reset (70_reset_and_hazards.md R190, R193; 10_state.md R29). Memory lists nothing, so every
backed byte reads 0x00. -/
def State.reset : State where
  a := Config.resetReg
  b := Config.resetReg
  c := Config.resetReg
  d := Config.resetReg
  e := Config.resetReg
  h := Config.resetReg
  l := Config.resetReg
  f := Flags.reset
  pc := Config.resetPc
  mem := []

end Sys2Proof.Machine
end

