-- ==== Sys2Proof/Machine/Flags.lean ====
section
/-! DEFINITION. Machine/Flags.lean: the byte view of F (10_state.md R18, R19) and the 8-bit adder with its four
flags (41_add.md R100). -/

namespace Sys2Proof.Machine

/-- A flag as the bit written into a byte (00_scope.md R6). -/
def flagBit (x : Bool) : Byte := if x then 1 else 0

/-- `to_byte(F)` (10_state.md R18). -/
def Flags.toByte (f : Flags) : Byte :=
  (flagBit f.z <<< 7) ||| (flagBit f.n <<< 6) ||| (flagBit f.h <<< 5) ||| (flagBit f.c <<< 4)

/-- `from_byte(b)` (10_state.md R19): bits 3 to 0 are ignored. -/
def Flags.fromByte (v : Byte) : Flags where
  z := v.getLsbD 7
  n := v.getLsbD 6
  h := v.getLsbD 5
  c := v.getLsbD 4

/-- The mathematical sum of two bytes, 0 to 510 (41_add.md R100). -/
abbrev byteSum (x y : Byte) : Nat := x.toNat + y.toNat

/-- The mathematical sum of the low nibbles, 0 to 30 (41_add.md R100). -/
abbrev nibbleSum (x y : Byte) : Nat := (x &&& 0xF).toNat + (y &&& 0xF).toNat

/-- The result byte of the adder: the sum modulo 256 (41_add.md R100). -/
abbrev add8Result (x y : Byte) : Byte := BitVec.ofNat 8 (byteSum x y)

/-- The four flags of the adder, each a function of the operands alone (41_add.md R100). -/
def add8Flags (x y : Byte) : Flags where
  z := decide (add8Result x y = 0)
  n := false
  h := decide (nibbleSum x y > 0xF)
  c := decide (byteSum x y > 255)

end Sys2Proof.Machine
end

