-- ==== Sys2Proof/WellFormed.lean ====
section
/-! DEFINITION. WellFormed.lean: which terms stand for an instruction of the CORE. -/

namespace Sys2Proof

/-- `LD (HL),(HL)` "is not an instruction": every other value of R77's variant has an opcode
(42_ld.md R126). -/
def Instruction.wellFormed : Instruction → Bool
  | .add _ => true
  | .ld .memHL .memHL => false
  | .ld .memHL (.reg _) => true
  | .ld .memHL .imm8 => true
  | .ld (.reg _) _ => true
  | .jp _ => true

/-- A table row is a well-formed instruction when it stands for a well-formed value of R77; the row of the
prefix marker does not: "no valid instruction starts with 0xCB" (30_encoding.md R60). -/
def Instr.wellFormed (i : Instr) : Bool :=
  match i.instruction with
  | some ins => ins.wellFormed
  | none => false

end Sys2Proof
end

