-- ==== Sys2Proof/Decode.lean ====
section
/-! DEFINITION. Decode.lean: the decoder (30_encoding.md R67 to R70, R76) as lookup in the two opcode tables,
the byte-list reading of it, and after it the encoder, written from the bit fields of R62 to R64 and the formats
of R61. The opcode numbers are the spec's decision D2 (log 1). -/

namespace Sys2Proof

/-- LD r,d8 and LD (HL),d8 (30_encoding.md R67; 42_ld.md R124, R125). -/
def rowsLoadImmediate : List (Byte × Instr) :=
  [ (0x06, .ldBImm), (0x0E, .ldCImm), (0x16, .ldDImm), (0x1E, .ldEImm),
    (0x26, .ldHImm), (0x2E, .ldLImm), (0x36, .ldMemImm), (0x3E, .ldAImm) ]

/-- The load opcodes 0x40 to 0x4F (30_encoding.md R67). -/
def rowsLoadFour : List (Byte × Instr) :=
  [ (0x40, .ldBB), (0x41, .ldBC), (0x42, .ldBD), (0x43, .ldBE),
    (0x44, .ldBH), (0x45, .ldBL), (0x46, .ldBMem), (0x47, .ldBA),
    (0x48, .ldCB), (0x49, .ldCC), (0x4A, .ldCD), (0x4B, .ldCE),
    (0x4C, .ldCH), (0x4D, .ldCL), (0x4E, .ldCMem), (0x4F, .ldCA) ]

/-- The load opcodes 0x50 to 0x5F (30_encoding.md R67). -/
def rowsLoadFive : List (Byte × Instr) :=
  [ (0x50, .ldDB), (0x51, .ldDC), (0x52, .ldDD), (0x53, .ldDE),
    (0x54, .ldDH), (0x55, .ldDL), (0x56, .ldDMem), (0x57, .ldDA),
    (0x58, .ldEB), (0x59, .ldEC), (0x5A, .ldED), (0x5B, .ldEE),
    (0x5C, .ldEH), (0x5D, .ldEL), (0x5E, .ldEMem), (0x5F, .ldEA) ]

/-- The load opcodes 0x60 to 0x6F (30_encoding.md R67). -/
def rowsLoadSix : List (Byte × Instr) :=
  [ (0x60, .ldHB), (0x61, .ldHC), (0x62, .ldHD), (0x63, .ldHE),
    (0x64, .ldHH), (0x65, .ldHL), (0x66, .ldHMem), (0x67, .ldHA),
    (0x68, .ldLB), (0x69, .ldLC), (0x6A, .ldLD), (0x6B, .ldLE),
    (0x6C, .ldLH), (0x6D, .ldLL), (0x6E, .ldLMem), (0x6F, .ldLA) ]

/-- The load opcodes 0x70 to 0x7F (30_encoding.md R67; 0x76 is not an instruction, R71). -/
def rowsLoadSeven : List (Byte × Instr) :=
  [ (0x70, .ldMemB), (0x71, .ldMemC), (0x72, .ldMemD), (0x73, .ldMemE),
    (0x74, .ldMemH), (0x75, .ldMemL), (0x77, .ldMemA), (0x78, .ldAB),
    (0x79, .ldAC), (0x7A, .ldAD), (0x7B, .ldAE), (0x7C, .ldAH),
    (0x7D, .ldAL), (0x7E, .ldAMem), (0x7F, .ldAA) ]

/-- ADD A,r (30_encoding.md R67; 0x86 is not an instruction, R71). -/
def rowsAdd : List (Byte × Instr) :=
  [ (0x80, .addAB), (0x81, .addAC), (0x82, .addAD), (0x83, .addAE),
    (0x84, .addAH), (0x85, .addAL), (0x87, .addAA) ]

/-- The five jumps (30_encoding.md R67). -/
def rowsJump : List (Byte × Instr) :=
  [ (0xC2, .jpNZ), (0xC3, .jp), (0xCA, .jpZ), (0xD2, .jpNC),
    (0xDA, .jpC) ]

/-- The unprefixed opcode table: "exactly the 83 entries" of 30_encoding.md R67. -/
def unprefixedTable : List (Byte × Instr) :=
  rowsLoadImmediate ++ rowsLoadFour ++ rowsLoadFive ++ rowsLoadSix ++ rowsLoadSeven ++ rowsAdd ++ rowsJump

/-- "The prefixed opcode table is empty" (30_encoding.md R68). -/
def prefixedTable : List (Byte × Instr) := []

/-- The entry of an opcode table, "keyed purely by byte value" (30_encoding.md R62, R78). -/
def tableLookup (op : Byte) : List (Byte × Instr) → Option Instr
  | [] => none
  | row :: rows => if row.1 = op then some row.2 else tableLookup op rows

/-- `Decode(opcode_byte, is_prefixed)` of 30_encoding.md R76; `none` is the verdict Unrecognized. -/
def decodeOpcode (op : Byte) (isPrefixed : Bool) : Option Instr :=
  tableLookup op (if isPrefixed then prefixedTable else unprefixedTable)

/-- What a list of bytes, lowest address first, begins with: a row of the opcode table, or the named reason
why not. -/
inductive Verdict where
  /-- The bytes begin with the encoding of this row. -/
  | row (i : Instr)
  /-- The byte has no entry in the unprefixed table (30_encoding.md R70). -/
  | unrecognized (op : Byte)
  /-- The list ends before the opcode does. -/
  | truncated
  deriving DecidableEq, Repr

/-- The decoder on bytes: 0xCB is never looked up (30_encoding.md R69) and gives the prefix marker's row with
the byte after it, for which `decodeOpcode _ true` has no entry. Operand bytes are never read (R76). -/
def decode : List Byte → Verdict
  | [] => .truncated
  | b :: rest =>
    if b = Config.prefixByte then
      match rest with
      | [] => .truncated
      | op :: _ => .row (.prefixCB op)
    else
      match decodeOpcode b false with
      | some i => .row i
      | none => .unrecognized b

/-- The row of a verdict, if it has one. -/
def Verdict.instr? : Verdict → Option Instr
  | .row i => some i
  | .unrecognized _ => none
  | .truncated => none

/-- The longest instruction in bytes (30_encoding.md R60). -/
def maxInstrBytes : Nat := 3

/-- The bytes, lowest address first, of an instruction whose bits are `w`, bit 0 the least significant bit of
the first byte; every bit from `nbits` up is 0. -/
def tableBytes (nbits w : Nat) : List Byte :=
  (List.range maxInstrBytes).map fun k => BitVec.ofNat 8 ((w % 2 ^ nbits) >>> (8 * k))

/-- The row the decoder reads from an opcode-table word. -/
def decodeTableWord (nbits w : Nat) : Option Instr :=
  (decode (tableBytes nbits w)).instr?

/-! ### The encoder -/

/-- The opcode byte of the fields x, y, z of 30_encoding.md R62. -/
def opcodeOf (x : BitVec 2) (y z : BitVec 3) : Byte := x ++ y ++ z

/-- `op[7:6]` (30_encoding.md R62). -/
def opcodeX (op : Byte) : BitVec 2 := op.extractLsb' 6 2

/-- `op[5:3]` (30_encoding.md R62). -/
def opcodeY (op : Byte) : BitVec 3 := op.extractLsb' 3 3

/-- `op[2:0]` (30_encoding.md R62). -/
def opcodeZ (op : Byte) : BitVec 3 := op.extractLsb' 0 3

/-- The register selector code (30_encoding.md R63). -/
def Reg.code : Reg → BitVec 3
  | .b => 0b000
  | .c => 0b001
  | .d => 0b010
  | .e => 0b011
  | .h => 0b100
  | .l => 0b101
  | .a => 0b111

/-- Selector code 110: the memory byte at address HL in a load, and the mark of an immediate load in field z
(30_encoding.md R62, R63). -/
def memCode : BitVec 3 := 0b110

/-- Field y of a load (30_encoding.md R63). -/
def LoadTarget.code : LoadTarget → BitVec 3
  | .reg r => r.code
  | .memHL => memCode

/-- The opcode byte R62's patterns give an Instruction; `ld memHL memHL` has none (42_ld.md R126), and the
condition codes are those of R64. -/
def Instruction.opcode : Instruction → Option Byte
  | .add r => some (opcodeOf 0b10 0b000 r.code)
  | .ld t .imm8 => some (opcodeOf 0b00 t.code memCode)
  | .ld t (.reg r) => some (opcodeOf 0b01 t.code r.code)
  | .ld (.reg r) .memHL => some (opcodeOf 0b01 r.code memCode)
  | .ld .memHL .memHL => none
  | .jp .notZero => some (opcodeOf 0b11 0b000 0b010)
  | .jp .zero => some (opcodeOf 0b11 0b001 0b010)
  | .jp .notCarry => some (opcodeOf 0b11 0b010 0b010)
  | .jp .carry => some (opcodeOf 0b11 0b011 0b010)
  | .jp .always => some (opcodeOf 0b11 0b000 0b011)

/-- The formats of 30_encoding.md R61. -/
inductive Format where
  | op | opD8 | opA16 | cbOp
  deriving DecidableEq, Repr

/-- The format of a value of R77 (30_encoding.md R61). -/
def Instruction.format : Instruction → Format
  | .add _ => .op
  | .ld _ (.reg _) => .op
  | .ld _ .memHL => .op
  | .ld _ .imm8 => .opD8
  | .jp _ => .opA16

/-- The format of a row (30_encoding.md R61). -/
def Instr.format (i : Instr) : Format :=
  match i.instruction with
  | some ins => ins.format
  | none => .cbOp

/-- The bytes of a format (30_encoding.md R61). -/
def Format.length : Format → Nat
  | .op => 1
  | .opD8 => 2
  | .opA16 => 3
  | .cbOp => 2

/-- "its length is fixed by its form" (30_encoding.md R60). -/
def Instruction.length (ins : Instruction) : Nat := ins.format.length

/-- The length the first byte alone tells, by the fields of R62; an unrecognized byte and 0xCB have none
(30_encoding.md R73). -/
def opcodeLength (op : Byte) : Option Nat :=
  match decodeOpcode op false with
  | none => none
  | some _ =>
    if opcodeX op = 0b01 ∨ opcodeX op = 0b10 then some 1
    else if opcodeX op = 0b00 ∧ opcodeZ op = 0b110 then some 2
    else some 3

/-- The opcode bytes of a row: the opcode byte, or 0xCB and the byte after it (30_encoding.md R61). -/
def Instr.opcodeBytes (i : Instr) : List Byte :=
  match i with
  | .prefixCB op => [Config.prefixByte, op]
  | j => (j.instruction.bind Instruction.opcode).toList

/-- `v[7:0]` of a word (00_scope.md R5). -/
def loByte (v : Word) : Byte := v.extractLsb' 0 8

/-- `v[15:8]` of a word (00_scope.md R5). -/
def hiByte (v : Word) : Byte := v.extractLsb' 8 8

/-- The operand bytes a format adds after the opcode, the low byte of a16 first (30_encoding.md R61, R66). -/
def Format.operandBytes (fmt : Format) (d8 : Byte) (a16 : Word) : List Byte :=
  match fmt with
  | .op => []
  | .opD8 => [d8]
  | .opA16 => [loByte a16, hiByte a16]
  | .cbOp => []

/-- All bytes of an instruction in address order, with the operand `d8` or `a16` its format has
(30_encoding.md R61). -/
def encode (i : Instr) (d8 : Byte) (a16 : Word) : List Byte :=
  i.opcodeBytes ++ i.format.operandBytes d8 a16

end Sys2Proof
end

