-- ==== Sys2Proof/Machine/Ops.lean ====
section
/-! DEFINITION. Machine/Ops.lean: the named operations over registers and memory (10_state.md R13 to R16,
20_memory.md R41, R42), taking a fault (60_exceptions.md R165) and committing the next program counter
(40_step_cycle.md R84). -/

namespace Sys2Proof.Machine

/-! ### Registers -/

/-- `x[r]` (00_scope.md R7). -/
def State.getReg (s : State) (r : Reg) : Byte :=
  match r with
  | .a => s.a
  | .b => s.b
  | .c => s.c
  | .d => s.d
  | .e => s.e
  | .h => s.h
  | .l => s.l

/-- `x[r] <- v` (00_scope.md R7). No register is hardwired (10_state.md R11). -/
def State.setReg (s : State) (r : Reg) (v : Byte) : State :=
  match r with
  | .a => { s with a := v }
  | .b => { s with b := v }
  | .c => { s with c := v }
  | .d => { s with d := v }
  | .e => { s with e := v }
  | .h => { s with h := v }
  | .l => { s with l := v }

/-- Write all four flags. -/
def State.setFlags (s : State) (f : Flags) : State := { s with f := f }

/-- Replace the memory. -/
def State.setMem (s : State) (m : Memory) : State := { s with mem := m }

/-- `hi:lo`, the word `(hi << 8) | lo` (00_scope.md R5). -/
def wordOf (hi lo : Byte) : Word := hi ++ lo

/-- The high register of a pair (10_state.md R16). -/
def pairHi : Pair → Reg
  | .bc => .b
  | .de => .d
  | .hl => .h

/-- The low register of a pair (10_state.md R16). -/
def pairLo : Pair → Reg
  | .bc => .c
  | .de => .e
  | .hl => .l

/-- `get_pair()` (10_state.md R14). -/
def State.getPair (s : State) (p : Pair) : Word := wordOf (s.getReg (pairHi p)) (s.getReg (pairLo p))

/-- `set_pair(v)` (10_state.md R15). No instruction performs it. -/
def State.setPair (s : State) (p : Pair) (v : Word) : State :=
  (s.setReg (pairHi p) (hiByte v)).setReg (pairLo p) (loByte v)

/-- The address of an (HL) operand: the pair view itself (20_memory.md R56). -/
def State.hl (s : State) : Word := s.getPair .hl

/-! ### Memory -/

/-- The byte a memory holds at an address. -/
def Memory.read : Memory → Nat → Byte
  | [], _ => Config.resetByte
  | cell :: m, addr => if cell.1 = addr then cell.2 else Memory.read m addr

/-- Forget what a memory lists at an address. -/
def Memory.erase (m : Memory) (addr : Nat) : Memory := m.filter fun cell => cell.1 ≠ addr

/-- List a byte at an address, before the first larger address. -/
def Memory.insert : Memory → Nat → Byte → Memory
  | [], addr, v => [(addr, v)]
  | cell :: m, addr, v => if cell.1 < addr then cell :: Memory.insert m addr v else (addr, v) :: cell :: m

/-- The memory with one byte changed; a byte equal to what an unlisted address reads as is not listed. -/
def Memory.write (m : Memory) (addr : Nat) (v : Byte) : Memory :=
  if v = Config.resetByte then Memory.erase m addr else Memory.insert (Memory.erase m addr) addr v

/-- The canonical form: addresses strictly rising, each backed, none listed with the byte an unlisted address
reads as. -/
abbrev Memory.wf (m : Memory) : Prop :=
  m.Pairwise (fun x y => x.1 < y.1) ∧ ∀ cell ∈ m, cell.1 < Config.memSize ∧ cell.2 ≠ Config.resetByte

/-- The addresses the backing store holds (20_memory.md R40). -/
def backed (addr : Word) : Bool := decide (addr.toNat < Config.memSize)

/-- `MemRead(addr, 1)` (20_memory.md R41). -/
def memRead (s : State) (addr : Word) : Except Fault Byte :=
  if backed addr then .ok (Memory.read s.mem addr.toNat) else .error (.addressFault addr)

/-- `MemWrite(addr, 1, v)` (20_memory.md R42). -/
def memWrite (s : State) (addr : Word) (v : Byte) : Except Fault State :=
  if backed addr then .ok (s.setMem (Memory.write s.mem addr.toNat v)) else .error (.addressFault addr)

/-- The backed bytes from `addr` up are these. -/
def holdsAt (s : State) (addr : Word) : List Byte → Bool
  | [] => true
  | v :: vs => backed addr && decide (Memory.read s.mem addr.toNat = v) && holdsAt s (add16 addr 1) vs

/-- Store bytes from `addr` up, leaving out an address that is not backed (log 8). -/
def placeBytes (s : State) (addr : Word) : List Byte → State
  | [] => s
  | v :: vs =>
    match memWrite s addr v with
    | .ok s' => placeBytes s' (add16 addr 1) vs
    | .error _ => placeBytes s (add16 addr 1) vs

/-! ### Ending a Step -/

/-- Taking a fault: the Step ends with the fault value, nothing is saved and nothing is changed, and control goes
to no handler (60_exceptions.md R165). There is no return from a fault (R166). -/
def raise (flt : Fault) : Host.Outcome State Fault Refusal := .fault flt

/-- Commit: "store next_pc into the program counter" (40_step_cycle.md R84). -/
def commit (s : State) (nextPc : Word) : State := { s with pc := nextPc }

/-- What Execute gives: the state it leaves, whose program counter is still the instruction's own, and next_pc;
or a fault (40_step_cycle.md R83). -/
abbrev Executed := Except Fault (State × Word)

/-- The end of a Step after Execute: Commit, or the fault (40_step_cycle.md R84, R87). -/
def finish : Executed → Host.Outcome State Fault Refusal
  | .ok done => .next (commit done.1 done.2)
  | .error flt => raise flt

end Sys2Proof.Machine
end

