-- ==== Sys2Proof/Machine/Operands.lean ====
section
/-! DEFINITION. Machine/Operands.lean: the operand selectors (40_step_cycle.md R90, R92), the two immediates
(30_encoding.md R65, R66) and the jump conditions (43_jp.md R140). -/

namespace Sys2Proof.Machine

/-- d8: the byte at PC + 1 (30_encoding.md R65). -/
def readImm8 (s : State) : Except Fault Byte := memRead s (add16 s.pc 1)

/-- a16: the low byte at PC + 1, read first, then the high byte at PC + 2 (30_encoding.md R66; 43_jp.md R141). -/
def readImm16 (s : State) : Except Fault Word :=
  match memRead s (add16 s.pc 1) with
  | .error flt => .error flt
  | .ok lo =>
    match memRead s (add16 s.pc 2) with
    | .error flt => .error flt
    | .ok hi => .ok (wordOf hi lo)

/-- `ReadSource(s)` (40_step_cycle.md R90). -/
def readSource (src : LoadSource) (s : State) : Except Fault Byte :=
  match src with
  | .reg r => .ok (s.getReg r)
  | .memHL => memRead s s.hl
  | .imm8 => readImm8 s

/-- `WriteTarget(t, v)` (40_step_cycle.md R92). -/
def writeTarget (tgt : LoadTarget) (v : Byte) (s : State) : Except Fault State :=
  match tgt with
  | .reg r => .ok (s.setReg r v)
  | .memHL => memWrite s s.hl v

/-- `Cond(c)` (43_jp.md R140). -/
def condHolds (cnd : JumpCond) (f : Flags) : Bool :=
  match cnd with
  | .always => true
  | .zero => f.z
  | .notZero => !f.z
  | .carry => f.c
  | .notCarry => !f.c

end Sys2Proof.Machine
end

