-- ==== Sys2Proof/Machine/Execute.lean ====
section
/-! DEFINITION. Machine/Execute.lean: the three families' execution, each giving the state it leaves and next_pc
(40_step_cycle.md R83, R85). -/

namespace Sys2Proof.Machine

/-- `ExecAdd(r)` (41_add.md R101): both operands are read before A is written. -/
def executeAdd (r : Reg) (s : State) : Executed :=
  .ok ((s.setReg .a (add8Result s.a (s.getReg r))).setFlags (add8Flags s.a (s.getReg r)), add16 s.pc 1)

/-- The advance of a load: 2 with an immediate, else 1 (40_step_cycle.md R85). -/
def loadAdvance : LoadSource → Word
  | .reg _ => 1
  | .memHL => 1
  | .imm8 => 2

/-- `ExecLd(t, s)` (42_ld.md R120): the source is read before the target is written. -/
def executeLd (tgt : LoadTarget) (src : LoadSource) (s : State) : Executed :=
  match readSource src s with
  | .error flt => .error flt
  | .ok v =>
    match writeTarget tgt v s with
    | .error flt => .error flt
    | .ok s' => .ok (s', add16 s.pc (loadAdvance src))

/-- `ExecJp(c)` (43_jp.md R141): the operand bytes are read only when the jump is taken (R148). -/
def executeJp (cnd : JumpCond) (s : State) : Executed :=
  if condHolds cnd s.f then
    match readImm16 s with
    | .error flt => .error flt
    | .ok target => .ok (s, target)
  else .ok (s, add16 s.pc 3)

/-- `Execute(i)` over the closed variant of R77, total on it (40_step_cycle.md R83, R91; 42_ld.md R126 for
`ld memHL memHL`). -/
def execute (ins : Instruction) (s : State) : Executed :=
  match ins with
  | .add r => executeAdd r s
  | .ld t src => executeLd t src s
  | .jp c => executeJp c s

end Sys2Proof.Machine
end

