-- ==== Sys2Proof/Machine/Add.lean ====
section
/-! DEFINITION. Machine/Add.lean: the seven additions (41_add.md R102 to R108), each over `executeAdd` (R101). -/

namespace Sys2Proof.Machine

/-- ADD A,B (R102). -/
def execAddAB (s : State) : Host.Outcome State Fault Refusal :=
  finish (executeAdd .b s)

/-- ADD A,C (R103). -/
def execAddAC (s : State) : Host.Outcome State Fault Refusal :=
  finish (executeAdd .c s)

/-- ADD A,D (R104). -/
def execAddAD (s : State) : Host.Outcome State Fault Refusal :=
  finish (executeAdd .d s)

/-- ADD A,E (R105). -/
def execAddAE (s : State) : Host.Outcome State Fault Refusal :=
  finish (executeAdd .e s)

/-- ADD A,H (R106). -/
def execAddAH (s : State) : Host.Outcome State Fault Refusal :=
  finish (executeAdd .h s)

/-- ADD A,L (R107). -/
def execAddAL (s : State) : Host.Outcome State Fault Refusal :=
  finish (executeAdd .l s)

/-- ADD A,A (R108). -/
def execAddAA (s : State) : Host.Outcome State Fault Refusal :=
  finish (executeAdd .a s)

end Sys2Proof.Machine
end

