-- ==== Sys2Proof/Machine/Jump.lean ====
section
/-! DEFINITION. Machine/Jump.lean: the five jumps (43_jp.md R142 to R146), each over `executeJp` (R141). -/

namespace Sys2Proof.Machine

/-- JP NZ,a16 (R143). -/
def execJpNZ (s : State) : Host.Outcome State Fault Refusal :=
  finish (executeJp .notZero s)

/-- JP a16 (R142). -/
def execJp (s : State) : Host.Outcome State Fault Refusal :=
  finish (executeJp .always s)

/-- JP Z,a16 (R144). -/
def execJpZ (s : State) : Host.Outcome State Fault Refusal :=
  finish (executeJp .zero s)

/-- JP NC,a16 (R145). -/
def execJpNC (s : State) : Host.Outcome State Fault Refusal :=
  finish (executeJp .notCarry s)

/-- JP C,a16 (R146). -/
def execJpC (s : State) : Host.Outcome State Fault Refusal :=
  finish (executeJp .carry s)

end Sys2Proof.Machine
end

