-- ==== Sys2Proof/Machine/Load.lean ====
section
/-! DEFINITION. Machine/Load.lean: the 71 byte loads (42_ld.md R121 to R125), each over `executeLd` (R120). -/

namespace Sys2Proof.Machine

/-- LD B,d8 (R124). -/
def execLdBImm (s : State) : Host.Outcome State Fault Refusal :=
  finish (executeLd (.reg .b) .imm8 s)

/-- LD C,d8 (R124). -/
def execLdCImm (s : State) : Host.Outcome State Fault Refusal :=
  finish (executeLd (.reg .c) .imm8 s)

/-- LD D,d8 (R124). -/
def execLdDImm (s : State) : Host.Outcome State Fault Refusal :=
  finish (executeLd (.reg .d) .imm8 s)

/-- LD E,d8 (R124). -/
def execLdEImm (s : State) : Host.Outcome State Fault Refusal :=
  finish (executeLd (.reg .e) .imm8 s)

/-- LD H,d8 (R124). -/
def execLdHImm (s : State) : Host.Outcome State Fault Refusal :=
  finish (executeLd (.reg .h) .imm8 s)

/-- LD L,d8 (R124). -/
def execLdLImm (s : State) : Host.Outcome State Fault Refusal :=
  finish (executeLd (.reg .l) .imm8 s)

/-- LD (HL),d8 (R125). -/
def execLdMemImm (s : State) : Host.Outcome State Fault Refusal :=
  finish (executeLd .memHL .imm8 s)

/-- LD A,d8 (R124). -/
def execLdAImm (s : State) : Host.Outcome State Fault Refusal :=
  finish (executeLd (.reg .a) .imm8 s)

/-- LD B,B (R121). -/
def execLdBB (s : State) : Host.Outcome State Fault Refusal :=
  finish (executeLd (.reg .b) (.reg .b) s)

/-- LD B,C (R121). -/
def execLdBC (s : State) : Host.Outcome State Fault Refusal :=
  finish (executeLd (.reg .b) (.reg .c) s)

/-- LD B,D (R121). -/
def execLdBD (s : State) : Host.Outcome State Fault Refusal :=
  finish (executeLd (.reg .b) (.reg .d) s)

/-- LD B,E (R121). -/
def execLdBE (s : State) : Host.Outcome State Fault Refusal :=
  finish (executeLd (.reg .b) (.reg .e) s)

/-- LD B,H (R121). -/
def execLdBH (s : State) : Host.Outcome State Fault Refusal :=
  finish (executeLd (.reg .b) (.reg .h) s)

/-- LD B,L (R121). -/
def execLdBL (s : State) : Host.Outcome State Fault Refusal :=
  finish (executeLd (.reg .b) (.reg .l) s)

/-- LD B,(HL) (R122). -/
def execLdBMem (s : State) : Host.Outcome State Fault Refusal :=
  finish (executeLd (.reg .b) .memHL s)

/-- LD B,A (R121). -/
def execLdBA (s : State) : Host.Outcome State Fault Refusal :=
  finish (executeLd (.reg .b) (.reg .a) s)

/-- LD C,B (R121). -/
def execLdCB (s : State) : Host.Outcome State Fault Refusal :=
  finish (executeLd (.reg .c) (.reg .b) s)

/-- LD C,C (R121). -/
def execLdCC (s : State) : Host.Outcome State Fault Refusal :=
  finish (executeLd (.reg .c) (.reg .c) s)

/-- LD C,D (R121). -/
def execLdCD (s : State) : Host.Outcome State Fault Refusal :=
  finish (executeLd (.reg .c) (.reg .d) s)

/-- LD C,E (R121). -/
def execLdCE (s : State) : Host.Outcome State Fault Refusal :=
  finish (executeLd (.reg .c) (.reg .e) s)

/-- LD C,H (R121). -/
def execLdCH (s : State) : Host.Outcome State Fault Refusal :=
  finish (executeLd (.reg .c) (.reg .h) s)

/-- LD C,L (R121). -/
def execLdCL (s : State) : Host.Outcome State Fault Refusal :=
  finish (executeLd (.reg .c) (.reg .l) s)

/-- LD C,(HL) (R122). -/
def execLdCMem (s : State) : Host.Outcome State Fault Refusal :=
  finish (executeLd (.reg .c) .memHL s)

/-- LD C,A (R121). -/
def execLdCA (s : State) : Host.Outcome State Fault Refusal :=
  finish (executeLd (.reg .c) (.reg .a) s)

/-- LD D,B (R121). -/
def execLdDB (s : State) : Host.Outcome State Fault Refusal :=
  finish (executeLd (.reg .d) (.reg .b) s)

/-- LD D,C (R121). -/
def execLdDC (s : State) : Host.Outcome State Fault Refusal :=
  finish (executeLd (.reg .d) (.reg .c) s)

/-- LD D,D (R121). -/
def execLdDD (s : State) : Host.Outcome State Fault Refusal :=
  finish (executeLd (.reg .d) (.reg .d) s)

/-- LD D,E (R121). -/
def execLdDE (s : State) : Host.Outcome State Fault Refusal :=
  finish (executeLd (.reg .d) (.reg .e) s)

/-- LD D,H (R121). -/
def execLdDH (s : State) : Host.Outcome State Fault Refusal :=
  finish (executeLd (.reg .d) (.reg .h) s)

/-- LD D,L (R121). -/
def execLdDL (s : State) : Host.Outcome State Fault Refusal :=
  finish (executeLd (.reg .d) (.reg .l) s)

/-- LD D,(HL) (R122). -/
def execLdDMem (s : State) : Host.Outcome State Fault Refusal :=
  finish (executeLd (.reg .d) .memHL s)

/-- LD D,A (R121). -/
def execLdDA (s : State) : Host.Outcome State Fault Refusal :=
  finish (executeLd (.reg .d) (.reg .a) s)

/-- LD E,B (R121). -/
def execLdEB (s : State) : Host.Outcome State Fault Refusal :=
  finish (executeLd (.reg .e) (.reg .b) s)

/-- LD E,C (R121). -/
def execLdEC (s : State) : Host.Outcome State Fault Refusal :=
  finish (executeLd (.reg .e) (.reg .c) s)

/-- LD E,D (R121). -/
def execLdED (s : State) : Host.Outcome State Fault Refusal :=
  finish (executeLd (.reg .e) (.reg .d) s)

/-- LD E,E (R121). -/
def execLdEE (s : State) : Host.Outcome State Fault Refusal :=
  finish (executeLd (.reg .e) (.reg .e) s)

/-- LD E,H (R121). -/
def execLdEH (s : State) : Host.Outcome State Fault Refusal :=
  finish (executeLd (.reg .e) (.reg .h) s)

/-- LD E,L (R121). -/
def execLdEL (s : State) : Host.Outcome State Fault Refusal :=
  finish (executeLd (.reg .e) (.reg .l) s)

/-- LD E,(HL) (R122). -/
def execLdEMem (s : State) : Host.Outcome State Fault Refusal :=
  finish (executeLd (.reg .e) .memHL s)

/-- LD E,A (R121). -/
def execLdEA (s : State) : Host.Outcome State Fault Refusal :=
  finish (executeLd (.reg .e) (.reg .a) s)

/-- LD H,B (R121). -/
def execLdHB (s : State) : Host.Outcome State Fault Refusal :=
  finish (executeLd (.reg .h) (.reg .b) s)

/-- LD H,C (R121). -/
def execLdHC (s : State) : Host.Outcome State Fault Refusal :=
  finish (executeLd (.reg .h) (.reg .c) s)

/-- LD H,D (R121). -/
def execLdHD (s : State) : Host.Outcome State Fault Refusal :=
  finish (executeLd (.reg .h) (.reg .d) s)

/-- LD H,E (R121). -/
def execLdHE (s : State) : Host.Outcome State Fault Refusal :=
  finish (executeLd (.reg .h) (.reg .e) s)

/-- LD H,H (R121). -/
def execLdHH (s : State) : Host.Outcome State Fault Refusal :=
  finish (executeLd (.reg .h) (.reg .h) s)

/-- LD H,L (R121). -/
def execLdHL (s : State) : Host.Outcome State Fault Refusal :=
  finish (executeLd (.reg .h) (.reg .l) s)

/-- LD H,(HL) (R122). -/
def execLdHMem (s : State) : Host.Outcome State Fault Refusal :=
  finish (executeLd (.reg .h) .memHL s)

/-- LD H,A (R121). -/
def execLdHA (s : State) : Host.Outcome State Fault Refusal :=
  finish (executeLd (.reg .h) (.reg .a) s)

/-- LD L,B (R121). -/
def execLdLB (s : State) : Host.Outcome State Fault Refusal :=
  finish (executeLd (.reg .l) (.reg .b) s)

/-- LD L,C (R121). -/
def execLdLC (s : State) : Host.Outcome State Fault Refusal :=
  finish (executeLd (.reg .l) (.reg .c) s)

/-- LD L,D (R121). -/
def execLdLD (s : State) : Host.Outcome State Fault Refusal :=
  finish (executeLd (.reg .l) (.reg .d) s)

/-- LD L,E (R121). -/
def execLdLE (s : State) : Host.Outcome State Fault Refusal :=
  finish (executeLd (.reg .l) (.reg .e) s)

/-- LD L,H (R121). -/
def execLdLH (s : State) : Host.Outcome State Fault Refusal :=
  finish (executeLd (.reg .l) (.reg .h) s)

/-- LD L,L (R121). -/
def execLdLL (s : State) : Host.Outcome State Fault Refusal :=
  finish (executeLd (.reg .l) (.reg .l) s)

/-- LD L,(HL) (R122). -/
def execLdLMem (s : State) : Host.Outcome State Fault Refusal :=
  finish (executeLd (.reg .l) .memHL s)

/-- LD L,A (R121). -/
def execLdLA (s : State) : Host.Outcome State Fault Refusal :=
  finish (executeLd (.reg .l) (.reg .a) s)

/-- LD (HL),B (R123). -/
def execLdMemB (s : State) : Host.Outcome State Fault Refusal :=
  finish (executeLd .memHL (.reg .b) s)

/-- LD (HL),C (R123). -/
def execLdMemC (s : State) : Host.Outcome State Fault Refusal :=
  finish (executeLd .memHL (.reg .c) s)

/-- LD (HL),D (R123). -/
def execLdMemD (s : State) : Host.Outcome State Fault Refusal :=
  finish (executeLd .memHL (.reg .d) s)

/-- LD (HL),E (R123). -/
def execLdMemE (s : State) : Host.Outcome State Fault Refusal :=
  finish (executeLd .memHL (.reg .e) s)

/-- LD (HL),H (R123). -/
def execLdMemH (s : State) : Host.Outcome State Fault Refusal :=
  finish (executeLd .memHL (.reg .h) s)

/-- LD (HL),L (R123). -/
def execLdMemL (s : State) : Host.Outcome State Fault Refusal :=
  finish (executeLd .memHL (.reg .l) s)

/-- LD (HL),A (R123). -/
def execLdMemA (s : State) : Host.Outcome State Fault Refusal :=
  finish (executeLd .memHL (.reg .a) s)

/-- LD A,B (R121). -/
def execLdAB (s : State) : Host.Outcome State Fault Refusal :=
  finish (executeLd (.reg .a) (.reg .b) s)

/-- LD A,C (R121). -/
def execLdAC (s : State) : Host.Outcome State Fault Refusal :=
  finish (executeLd (.reg .a) (.reg .c) s)

/-- LD A,D (R121). -/
def execLdAD (s : State) : Host.Outcome State Fault Refusal :=
  finish (executeLd (.reg .a) (.reg .d) s)

/-- LD A,E (R121). -/
def execLdAE (s : State) : Host.Outcome State Fault Refusal :=
  finish (executeLd (.reg .a) (.reg .e) s)

/-- LD A,H (R121). -/
def execLdAH (s : State) : Host.Outcome State Fault Refusal :=
  finish (executeLd (.reg .a) (.reg .h) s)

/-- LD A,L (R121). -/
def execLdAL (s : State) : Host.Outcome State Fault Refusal :=
  finish (executeLd (.reg .a) (.reg .l) s)

/-- LD A,(HL) (R122). -/
def execLdAMem (s : State) : Host.Outcome State Fault Refusal :=
  finish (executeLd (.reg .a) .memHL s)

/-- LD A,A (R121). -/
def execLdAA (s : State) : Host.Outcome State Fault Refusal :=
  finish (executeLd (.reg .a) (.reg .a) s)

end Sys2Proof.Machine
end

