-- ==== Sys2Proof/Machine/Marker.lean ====
section
/-! DEFINITION. Machine/Marker.lean: the row of the prefix marker 0xCB. -/

namespace Sys2Proof.Machine

/-- 0xCB and the byte after it: the byte is looked up in the prefixed table, which is empty, so every such pair
raises UnrecognizedOpcode of the second byte (30_encoding.md R68, R69; 60_exceptions.md R161). -/
def execPrefixCB (opcode2 : Byte) (_s : State) : Host.Outcome State Fault Refusal :=
  raise (.unrecognizedOpcode opcode2 true)

end Sys2Proof.Machine
end

