-- ==== Sys2Proof/Machine/Dispatch.lean ====
section
/-! DEFINITION. Machine/Dispatch.lean: one arm for each row of spec/opcode_table.json (Execute and Commit of
40_step_cycle.md R83, R84, chosen by the row). -/

namespace Sys2Proof.Machine

def exec (i : Instr) (s : State) : Host.Outcome State Fault Refusal :=
  match i with
  | .prefixCB op => Sys2Proof.Machine.execPrefixCB op s
  | .ldBImm => Sys2Proof.Machine.execLdBImm s
  | .ldCImm => Sys2Proof.Machine.execLdCImm s
  | .ldDImm => Sys2Proof.Machine.execLdDImm s
  | .ldEImm => Sys2Proof.Machine.execLdEImm s
  | .ldHImm => Sys2Proof.Machine.execLdHImm s
  | .ldLImm => Sys2Proof.Machine.execLdLImm s
  | .ldMemImm => Sys2Proof.Machine.execLdMemImm s
  | .ldAImm => Sys2Proof.Machine.execLdAImm s
  | .ldBB => Sys2Proof.Machine.execLdBB s
  | .ldBC => Sys2Proof.Machine.execLdBC s
  | .ldBD => Sys2Proof.Machine.execLdBD s
  | .ldBE => Sys2Proof.Machine.execLdBE s
  | .ldBH => Sys2Proof.Machine.execLdBH s
  | .ldBL => Sys2Proof.Machine.execLdBL s
  | .ldBMem => Sys2Proof.Machine.execLdBMem s
  | .ldBA => Sys2Proof.Machine.execLdBA s
  | .ldCB => Sys2Proof.Machine.execLdCB s
  | .ldCC => Sys2Proof.Machine.execLdCC s
  | .ldCD => Sys2Proof.Machine.execLdCD s
  | .ldCE => Sys2Proof.Machine.execLdCE s
  | .ldCH => Sys2Proof.Machine.execLdCH s
  | .ldCL => Sys2Proof.Machine.execLdCL s
  | .ldCMem => Sys2Proof.Machine.execLdCMem s
  | .ldCA => Sys2Proof.Machine.execLdCA s
  | .ldDB => Sys2Proof.Machine.execLdDB s
  | .ldDC => Sys2Proof.Machine.execLdDC s
  | .ldDD => Sys2Proof.Machine.execLdDD s
  | .ldDE => Sys2Proof.Machine.execLdDE s
  | .ldDH => Sys2Proof.Machine.execLdDH s
  | .ldDL => Sys2Proof.Machine.execLdDL s
  | .ldDMem => Sys2Proof.Machine.execLdDMem s
  | .ldDA => Sys2Proof.Machine.execLdDA s
  | .ldEB => Sys2Proof.Machine.execLdEB s
  | .ldEC => Sys2Proof.Machine.execLdEC s
  | .ldED => Sys2Proof.Machine.execLdED s
  | .ldEE => Sys2Proof.Machine.execLdEE s
  | .ldEH => Sys2Proof.Machine.execLdEH s
  | .ldEL => Sys2Proof.Machine.execLdEL s
  | .ldEMem => Sys2Proof.Machine.execLdEMem s
  | .ldEA => Sys2Proof.Machine.execLdEA s
  | .ldHB => Sys2Proof.Machine.execLdHB s
  | .ldHC => Sys2Proof.Machine.execLdHC s
  | .ldHD => Sys2Proof.Machine.execLdHD s
  | .ldHE => Sys2Proof.Machine.execLdHE s
  | .ldHH => Sys2Proof.Machine.execLdHH s
  | .ldHL => Sys2Proof.Machine.execLdHL s
  | .ldHMem => Sys2Proof.Machine.execLdHMem s
  | .ldHA => Sys2Proof.Machine.execLdHA s
  | .ldLB => Sys2Proof.Machine.execLdLB s
  | .ldLC => Sys2Proof.Machine.execLdLC s
  | .ldLD => Sys2Proof.Machine.execLdLD s
  | .ldLE => Sys2Proof.Machine.execLdLE s
  | .ldLH => Sys2Proof.Machine.execLdLH s
  | .ldLL => Sys2Proof.Machine.execLdLL s
  | .ldLMem => Sys2Proof.Machine.execLdLMem s
  | .ldLA => Sys2Proof.Machine.execLdLA s
  | .ldMemB => Sys2Proof.Machine.execLdMemB s
  | .ldMemC => Sys2Proof.Machine.execLdMemC s
  | .ldMemD => Sys2Proof.Machine.execLdMemD s
  | .ldMemE => Sys2Proof.Machine.execLdMemE s
  | .ldMemH => Sys2Proof.Machine.execLdMemH s
  | .ldMemL => Sys2Proof.Machine.execLdMemL s
  | .ldMemA => Sys2Proof.Machine.execLdMemA s
  | .ldAB => Sys2Proof.Machine.execLdAB s
  | .ldAC => Sys2Proof.Machine.execLdAC s
  | .ldAD => Sys2Proof.Machine.execLdAD s
  | .ldAE => Sys2Proof.Machine.execLdAE s
  | .ldAH => Sys2Proof.Machine.execLdAH s
  | .ldAL => Sys2Proof.Machine.execLdAL s
  | .ldAMem => Sys2Proof.Machine.execLdAMem s
  | .ldAA => Sys2Proof.Machine.execLdAA s
  | .addAB => Sys2Proof.Machine.execAddAB s
  | .addAC => Sys2Proof.Machine.execAddAC s
  | .addAD => Sys2Proof.Machine.execAddAD s
  | .addAE => Sys2Proof.Machine.execAddAE s
  | .addAH => Sys2Proof.Machine.execAddAH s
  | .addAL => Sys2Proof.Machine.execAddAL s
  | .addAA => Sys2Proof.Machine.execAddAA s
  | .jpNZ => Sys2Proof.Machine.execJpNZ s
  | .jp => Sys2Proof.Machine.execJp s
  | .jpZ => Sys2Proof.Machine.execJpZ s
  | .jpNC => Sys2Proof.Machine.execJpNC s
  | .jpC => Sys2Proof.Machine.execJpC s

end Sys2Proof.Machine
end

