-- ==== Sys2Proof/Machine/Fetch.lean ====
section
/-! DEFINITION. Machine/Fetch.lean: the Fetch phase (40_step_cycle.md R81). -/

namespace Sys2Proof.Machine

/-- What Fetch hands to Decode: the final opcode byte and the transient prefixed mark (00_scope.md R9). -/
structure Fetched where
  op : Byte
  isPrefixed : Bool
  deriving DecidableEq, Repr

/-- Fetch: the byte at PC, and the byte at PC + 1 after the prefix marker; PC does not move. -/
def fetch (s : State) : Except Fault Fetched :=
  match memRead s s.pc with
  | .error flt => .error flt
  | .ok b0 =>
    if b0 = Config.prefixByte then
      match memRead s (add16 s.pc 1) with
      | .error flt => .error flt
      | .ok op => .ok { op := op, isPrefixed := true }
    else .ok { op := b0, isPrefixed := false }

end Sys2Proof.Machine
end

