-- ==== Sys2Proof/Machine/Step.lean ====
section
/-! DEFINITION. Machine/Step.lean: one Step (40_step_cycle.md R80, R87). -/

namespace Sys2Proof.Machine

/-- Fetch, Decode, Execute, Commit, each once and in this order; the first to raise ends the Step
(40_step_cycle.md R87; 60_exceptions.md R164). -/
def step (s : State) : Host.Outcome State Fault Refusal :=
  match fetch s with
  | .error flt => raise flt
  | .ok got =>
    match decodeOpcode got.op got.isPrefixed with
    | none => raise (.unrecognizedOpcode got.op got.isPrefixed)
    | some i => exec i s

/-- The state with an opcode-table word stored at PC, where Fetch reads next: the host's Load of that
instruction (log 7). -/
def State.withFetchWord (s : State) (nbits w : Nat) : State := placeBytes s s.pc (tableBytes nbits w)

end Sys2Proof.Machine
end

