-- ==== Sys2Proof/Machine/Access.lean ====
section
/-! DEFINITION. Machine/Access.lean: the memory accesses each Step makes, in order (20_memory.md R47). -/

namespace Sys2Proof.Machine

/-- One byte-wide access. -/
inductive Access where
  | read (addr : Word)
  | write (addr : Word)
  deriving DecidableEq, Repr

/-- The address of an access. -/
def accessAddr : Access → Word
  | .read addr => addr
  | .write addr => addr

/-- The access of a source operand (40_step_cycle.md R90). -/
def sourceAccesses (src : LoadSource) (s : State) : List Access :=
  match src with
  | .reg _ => []
  | .memHL => [.read s.hl]
  | .imm8 => [.read (add16 s.pc 1)]

/-- The access of a target operand (40_step_cycle.md R92). -/
def targetAccesses (tgt : LoadTarget) (s : State) : List Access :=
  match tgt with
  | .reg _ => []
  | .memHL => [.write s.hl]

/-- The accesses of Execute, in order (20_memory.md R47; the untaken jump makes none, 43_jp.md R148). -/
def executeAccesses (ins : Instruction) (s : State) : List Access :=
  match ins with
  | .add _ => []
  | .ld tgt src => sourceAccesses src s ++ targetAccesses tgt s
  | .jp cnd => if condHolds cnd s.f then [.read (add16 s.pc 1), .read (add16 s.pc 2)] else []

/-- The accesses of Execute of a table row; the prefix marker's row has no Execute. -/
def rowAccesses (i : Instr) (s : State) : List Access :=
  match i.instruction with
  | none => []
  | some ins => executeAccesses ins s

/-- The accesses a Step sets out to make, in order (20_memory.md R47). The first one whose address is not backed
ends the Step, so those after it are not made. -/
def stepAccesses (s : State) : List Access :=
  if backed s.pc then
    if Memory.read s.mem s.pc.toNat = Config.prefixByte then [.read s.pc, .read (add16 s.pc 1)]
    else
      match decodeOpcode (Memory.read s.mem s.pc.toNat) false with
      | none => [.read s.pc]
      | some i => .read s.pc :: rowAccesses i s
  else [.read s.pc]

end Sys2Proof.Machine
end

