-- ==== Sys2Proof/Machine/Session.lean ====
section
/-! DEFINITION. Machine/Session.lean: what the host can do to a CORE: Construct, Load, Step and Inspect, each when
60_exceptions.md R176 allows it, and several instances side by side (20_memory.md R57). The phase of a session is
the host's knowledge, not state of the CORE (10_state.md R28; log 12). -/

namespace Sys2Proof.Machine

/-! ### Inspect -/

/-- One of the four flags. -/
inductive FlagName where
  | zero | subtract | halfCarry | carry
  deriving DecidableEq, Repr

/-- What Inspect can read (10_state.md R30). -/
inductive Query where
  | reg (r : Reg)
  | flag (x : FlagName)
  | flagsByte
  | pc
  | mem (addr : Word)
  deriving DecidableEq, Repr

/-- What Inspect answers. -/
inductive Answer where
  | byte (v : Byte)
  | bool (x : Bool)
  | word (v : Word)
  deriving DecidableEq, Repr

/-- `F.z`, `F.n`, `F.h`, `F.c` (00_scope.md R7). -/
def getFlag (f : Flags) (x : FlagName) : Bool :=
  match x with
  | .zero => f.z
  | .subtract => f.n
  | .halfCarry => f.h
  | .carry => f.c

/-- Inspect: a value and no new state; an unbacked address is refused like any other read (10_state.md R30). -/
def inspect (q : Query) (s : State) : Except Fault Answer :=
  match q with
  | .reg r => .ok (.byte (s.getReg r))
  | .flag x => .ok (.bool (getFlag s.f x))
  | .flagsByte => .ok (.byte s.f.toByte)
  | .pc => .ok (.word s.pc)
  | .mem addr =>
    match memRead s addr with
    | .ok v => .ok (.byte v)
    | .error flt => .error flt

/-! ### Load -/

/-- Load: store bytes at addresses, in the order given; "it neither validates nor interprets a loaded image"
(20_memory.md R48, R51). An unbacked address faults like any other write (log 13), and the fault carries
no state: whether the bytes before it stay stored is open (log 15). -/
def load : List (Word × Byte) → State → Except Fault State
  | [], s => .ok s
  | item :: items, s =>
    match memWrite s item.1 item.2 with
    | .error flt => .error flt
    | .ok s' => load items s'

/-! ### A session -/

/-- Where a session stands. -/
inductive Phase where
  /-- Constructed, no Step taken yet. -/
  | loading
  /-- At least one Step taken, none faulted. -/
  | running
  /-- A Step has faulted: "the run is over" (60_exceptions.md R166). -/
  | stopped (flt : Fault)
  deriving DecidableEq, Repr

/-- A CORE and what the host has done with it. -/
structure Session where
  cpu : State
  phase : Phase
  deriving DecidableEq, Repr

/-- Why a host operation is not allowed. -/
inductive HostRefusal where
  /-- Load after the first Step (60_exceptions.md R176). Safe. -/
  | loadAfterStep
  /-- Step after a fault (60_exceptions.md R166, R176). Safe. -/
  | stepAfterFault
  /-- The machine refused the instruction; no instruction is refused. Safe. -/
  | noMeaning (r : Refusal)
  deriving DecidableEq, Repr

/-- Construct (70_reset_and_hazards.md R190). -/
def construct : Session := { cpu := State.reset, phase := .loading }

/-- Load in a session: before the first Step only. The inner result is the fault of an unbacked address (log 13). Such
a Load answers no session: the spec does not say whether the bytes given before that address stay stored, nor whether
the host may go on, and the model says neither (DESIGN CHOICE, log 15). -/
def sessionLoad (items : List (Word × Byte)) (x : Session) : Except HostRefusal (Except Fault Session) :=
  match x.phase with
  | .loading =>
    match load items x.cpu with
    | .ok s => .ok (.ok { x with cpu := s })
    | .error flt => .ok (.error flt)
  | .running => .error .loadAfterStep
  | .stopped _ => .error .loadAfterStep

/-- Step in a session: the new session and Ok (`none`) or the fault value. A faulting Step leaves the CORE as it
was and ends the run (40_step_cycle.md R86; 60_exceptions.md R165, R166). -/
def sessionStep (x : Session) : Except HostRefusal (Session × Option Fault) :=
  match x.phase with
  | .stopped _ => .error .stepAfterFault
  | .loading | .running =>
    match step x.cpu with
    | .next s => .ok ({ cpu := s, phase := .running }, none)
    | .fault flt => .ok ({ cpu := x.cpu, phase := .stopped flt }, some flt)
    | .refused r => .error (.noMeaning r)

/-! ### Several instances -/

/-- One Step of instance `k`; `none` where there is no such instance (20_memory.md R57). -/
def stepInstance (k : Nat) (cpus : List State) : Option (Host.Outcome (List State) Fault Refusal) :=
  match cpus[k]? with
  | none => none
  | some s =>
    match step s with
    | .next t => some (.next (cpus.set k t))
    | .fault flt => some (.fault flt)
    | .refused r => some (.refused r)

end Sys2Proof.Machine
end

