-- ==== Sys2Proof/Machine/Text.lean ====
section
/-! DEFINITION. Machine/Text.lean: the texts the CORE's interface has: the diagnostic of a fault
(60_exceptions.md R162) and the assembler spelling of an instruction (30_encoding.md R74). No behaviour depends on
them. -/

namespace Sys2Proof.Machine

/-- One hexadecimal digit, upper-case. -/
def hexDigit (n : Nat) : Char :=
  ['0', '1', '2', '3', '4', '5', '6', '7', '8', '9', 'A', 'B', 'C', 'D', 'E', 'F'].getD n '0'

/-- A byte as two upper-case hexadecimal digits. -/
def hexByte (v : Byte) : List Char := [hexDigit (v.toNat / 16), hexDigit (v.toNat % 16)]

/-- A word as four upper-case hexadecimal digits. -/
def hexWord (v : Word) : List Char := hexByte (hiByte v) ++ hexByte (loByte v)

/-- The characters of the diagnostic text (60_exceptions.md R162), which "defines no text for AddressFault". -/
def diagnosticChars : Fault → Option (List Char)
  | .unrecognizedOpcode v true => some (['0', 'x', 'C', 'B'] ++ hexByte v)
  | .unrecognizedOpcode v false => some (['0', 'x'] ++ hexByte v)
  | .addressFault _ => none

/-- The diagnostic text (60_exceptions.md R162). -/
def diagnostic (flt : Fault) : Option String := (diagnosticChars flt).map String.ofList

/-- A register by its letter (30_encoding.md R74). -/
def regText : Reg → List Char
  | .a => ['A']
  | .b => ['B']
  | .c => ['C']
  | .d => ['D']
  | .e => ['E']
  | .h => ['H']
  | .l => ['L']

/-- The memory operand (30_encoding.md R74). -/
def memText : List Char := ['(', 'H', 'L', ')']

/-- A load target (30_encoding.md R74). -/
def targetText : LoadTarget → List Char
  | .reg r => regText r
  | .memHL => memText

/-- A load source; an immediate as a hexadecimal byte (30_encoding.md R74). -/
def sourceText (src : LoadSource) (d8 : Byte) : List Char :=
  match src with
  | .reg r => regText r
  | .memHL => memText
  | .imm8 => ['0', 'x'] ++ hexByte d8

/-- The condition before the address (30_encoding.md R74). -/
def condText : JumpCond → List Char
  | .always => []
  | .zero => ['Z', ',', ' ']
  | .notZero => ['N', 'Z', ',', ' ']
  | .carry => ['C', ',', ' ']
  | .notCarry => ['N', 'C', ',', ' ']

/-- The assembler spelling: mnemonic in capitals, destination first (30_encoding.md R74; log 14). -/
def assemblyChars (ins : Instruction) (d8 : Byte) (a16 : Word) : List Char :=
  match ins with
  | .add r => ['A', 'D', 'D', ' ', 'A', ',', ' '] ++ regText r
  | .ld t src => ['L', 'D', ' '] ++ targetText t ++ [',', ' '] ++ sourceText src d8
  | .jp c => ['J', 'P', ' '] ++ condText c ++ ['0', 'x'] ++ hexWord a16

end Sys2Proof.Machine
end

