-- ==== Sys2Proof/Safety.lean ====
section
/-! DEFINITION. Safety.lean: what keeps a run going (70_reset_and_hazards.md R196) and what a safe run is. -/

namespace Sys2Proof.Safety

open Sys2Proof.Machine

/-- The last word of the address space, the one address that is not backed (20_memory.md R43). -/
abbrev topAddress : Word := 0xFFFF

/-- The obligations of 70_reset_and_hazards.md R196 (b) for Execute of an instruction at PC: HL differs from 0xFFFF
at every (HL) operand, a two-byte instruction does not start at 0xFFFE, a taken jump not at 0xFFFD or 0xFFFE. -/
def operandsBacked (ins : Instruction) (s : State) : Bool :=
  match ins with
  | .add _ => true
  | .ld tgt src =>
    (match src with
      | .reg _ => true
      | .memHL => (s.hl != topAddress)
      | .imm8 => (s.pc != 0xFFFE)) &&
    (match tgt with
      | .reg _ => true
      | .memHL => (s.hl != topAddress))
  | .jp cnd => !condHolds cnd s.f || ((s.pc != 0xFFFD) && (s.pc != 0xFFFE))

/-- 70_reset_and_hazards.md R196 (a) and (b) in one state: PC is not 0xFFFF, the byte at PC is a recognized opcode
(0xCB is none), and the operands are backed. -/
def keepsRunning (s : State) : Bool :=
  (s.pc != topAddress) &&
    match decodeOpcode (Memory.read s.mem s.pc.toNat) false with
    | none => false
    | some i =>
      match i.instruction with
      | none => false
      | some ins => operandsBacked ins s

/-- `n` Steps from `s` all succeed and end in `t`. -/
def RunsTo (n : Nat) (s t : State) : Prop := Host.Core.run Sys2Proof.core n s = .next t

/-- A run of `n` Steps without a fault. -/
def SafeFor (n : Nat) (s : State) : Prop := ∃ t, RunsTo n s t

end Sys2Proof.Safety
end

