-- ==== Sys2Proof/Certificates/Slice0/Obligations.lean ====
section
/-! DEFINITION. Certificates/Slice0/Obligations.lean: the statements for the provers. "The spec's decision D<n>" is a
choice 92_eei_decisions.md marks as its own; "log <n>" is notes/assumptions/<n>.md. -/

open Sys2Proof Sys2Proof.Machine

/-! ### Words the statements share -/

namespace Sys2Proof.Claims

/-- The byte a state's memory holds at an address. -/
def byteAt (s : State) (addr : Word) : Byte := Memory.read s.mem addr.toNat

/-- The instruction whose opcode byte stands, backed, at PC; none for 0xCB and for an unrecognized byte. -/
def fetchedInstruction (s : State) : Option Instruction :=
  match memRead s s.pc with
  | .error _ => none
  | .ok b => (decodeOpcode b false).bind Instr.instruction

/-- The unprefixed table gives this opcode byte to this value of R77. -/
def Decodes (op : Byte) (ins : Instruction) : Prop :=
  ∃ i, decodeOpcode op false = some i ∧ i.instruction = some ins

/-- An opcode value in a range, both ends included. -/
def inRange (lo hi : Nat) (op : Byte) : Prop := lo ≤ op.toNat ∧ op.toNat ≤ hi

/-- The whole state after an ADD of the byte `v` at `s` (41_add.md R100, R101). -/
def added (s : State) (v : Byte) : State :=
  { s with
    a := BitVec.ofNat 8 (s.a.toNat + v.toNat)
    f :=
      { z := decide ((s.a.toNat + v.toNat) % 256 = 0)
        n := false
        h := decide (s.a.toNat % 16 + v.toNat % 16 > 15)
        c := decide (s.a.toNat + v.toNat > 255) }
    pc := s.pc + 1 }

/-- The 16-bit operand of a jump, low byte at PC + 1 (20_memory.md R45). -/
def jumpTarget (s : State) : Word := wordOf (byteAt s (s.pc + 2)) (byteAt s (s.pc + 1))

/-- `u` is `s` with the byte `v` stored at `addr`, PC moved to `pc'` and nothing else changed. -/
def StoredOnly (s u : State) (addr : Word) (v : Byte) (pc' : Word) : Prop :=
  memRead u addr = .ok v ∧ (∀ k, k ≠ addr → memRead u k = memRead s k) ∧ (∀ r, u.getReg r = s.getReg r) ∧
    u.f = s.f ∧ u.pc = pc'

end Sys2Proof.Claims

open Sys2Proof.Claims

/-! ### Registers, pairs, flags, reset -/

/-- 10_state.md R11: the seven registers are independent storage, every byte can be written to each and is read
back. -/
def Obligations.RegistersAreIndependentStorage : Prop :=
  ∀ (s : State) (r r' : Reg) (v : Byte),
    (s.setReg r v).getReg r' = (if r' = r then v else s.getReg r') ∧ (s.setReg r v).f = s.f ∧
      (s.setReg r v).pc = s.pc ∧ (s.setReg r v).mem = s.mem

/-- 10_state.md R14: a pair reads as `(hi << 8) | lo`. -/
def Obligations.PairReadsHighThenLow : Prop :=
  ∀ s : State,
    s.getPair .hl = ((zext 16 s.h) <<< 8 ||| zext 16 s.l) ∧ s.getPair .bc = ((zext 16 s.b) <<< 8 ||| zext 16 s.c) ∧
      s.getPair .de = ((zext 16 s.d) <<< 8 ||| zext 16 s.e)

/-- 10_state.md R15: a pair write stores `v >> 8` and `v & 0xFF`, reads back, and mutates no other field. -/
def Obligations.PairWriteSplitsTheWord : Prop :=
  ∀ (s : State) (p : Pair) (v : Word),
    (s.setPair p v).getReg (pairHi p) = zext 8 (v >>> 8) ∧ (s.setPair p v).getReg (pairLo p) = zext 8 (v &&& 0xFF) ∧
      (s.setPair p v).getPair p = v ∧
      (∀ r, r ≠ pairHi p → r ≠ pairLo p → (s.setPair p v).getReg r = s.getReg r) ∧ (s.setPair p v).f = s.f ∧
      (s.setPair p v).pc = s.pc ∧ (s.setPair p v).mem = s.mem

/-- 10_state.md R18, R19, R20: the byte view of F, bit by bit, and the two round trips. -/
def Obligations.FlagsByteConversions : Prop :=
  (∀ f : Flags, f.toByte.getLsbD 7 = f.z ∧ f.toByte.getLsbD 6 = f.n ∧ f.toByte.getLsbD 5 = f.h ∧
      f.toByte.getLsbD 4 = f.c ∧ f.toByte.toNat % 16 = 0) ∧
    (∀ b : Byte, Flags.fromByte b = ⟨b.getLsbD 7, b.getLsbD 6, b.getLsbD 5, b.getLsbD 4⟩) ∧
    (∀ f : Flags, Flags.fromByte f.toByte = f) ∧ (∀ b : Byte, (Flags.fromByte b).toByte = b &&& 0xF0) ∧
    ∀ b : Byte, (∃ f : Flags, f.toByte = b) ↔ b.toNat % 16 = 0

/-- 70_reset_and_hazards.md R190: after Construct every register, flag and PC is zero and every backed byte reads
0x00. -/
def Obligations.ConstructZeroesEverything : Prop :=
  (∀ r, State.reset.getReg r = 0x00) ∧ State.reset.f = ⟨false, false, false, false⟩ ∧
    State.reset.f.toByte = 0x00 ∧ State.reset.pc = 0x0000 ∧
    ∀ addr : Word, addr.toNat ≤ 0xFFFE → memRead State.reset addr = .ok 0x00

/-! ### Memory -/

/-- 20_memory.md R41: MemRead answers the stored byte, or raises at 0xFFFF. -/
def Obligations.MemReadAnswersTheByteOrFaults : Prop :=
  ∀ (s : State) (addr : Word),
    (addr.toNat ≤ 0xFFFE → memRead s addr = .ok (byteAt s addr)) ∧
      (addr = 0xFFFF → memRead s addr = .error (.addressFault 0xFFFF))

/-- 20_memory.md R42: MemWrite changes the byte at that address only, or raises at 0xFFFF. -/
def Obligations.MemWriteChangesOneByteOnly : Prop :=
  ∀ (s : State) (addr : Word) (v : Byte),
    (addr.toNat ≤ 0xFFFE → ∃ u, memWrite s addr v = .ok u ∧ StoredOnly s u addr v s.pc) ∧
      (addr = 0xFFFF → memWrite s addr v = .error (.addressFault 0xFFFF))

/-- 20_memory.md R44: repeating a write of the same value leaves memory the same. -/
def Obligations.MemWriteRepeatedChangesNothing : Prop :=
  ∀ (s u : State) (addr : Word) (v : Byte), memWrite s addr v = .ok u → memWrite u addr v = .ok u

/-- The model's own (log 6): two memories in canonical form that read alike at every backed address are equal. -/
def Obligations.CanonicalMemoriesAreEqualWhenTheyReadAlike : Prop :=
  ∀ m m' : Memory, Memory.wf m → Memory.wf m' →
    (∀ addr, addr < 65535 → Memory.read m addr = Memory.read m' addr) → m = m'

/-- The model's own (log 6): the memory after Construct is canonical. -/
def Obligations.ResetMemoryIsCanonical : Prop := Memory.wf State.reset.mem

/-- The model's own (log 6): every Step keeps the canonical form of memory. -/
def Obligations.StepKeepsMemoryCanonical : Prop :=
  ∀ s t : State, Memory.wf s.mem → step s = .next t → Memory.wf t.mem

/-- 20_memory.md R51, 60_exceptions.md R176: Load stores any bytes at any backed addresses, the last one given for an
address standing, and touches nothing else. The clause on `Memory.wf`, that Load keeps memory canonical, is the
model's own form (log 6, DEDUCED), of which neither rule speaks. -/
def Obligations.LoadStoresTheGivenBytes : Prop :=
  ∀ (items : List (Word × Byte)) (s : State), (∀ item ∈ items, item.1 ≠ 0xFFFF) →
    ∃ t, load items s = .ok t ∧ (∀ r, t.getReg r = s.getReg r) ∧ t.f = s.f ∧ t.pc = s.pc ∧
      (Memory.wf s.mem → Memory.wf t.mem) ∧
      ∀ addr : Word, addr ≠ 0xFFFF →
        byteAt t addr = (match items.reverse.find? (fun item => item.1 == addr) with
          | some item => item.2
          | none => byteAt s addr)

/-! ### Encoding -/

/-- Decode of encode is the row, whatever the operand bytes and what follows (the opcode numbers are the spec's
decision D2, log 1). -/
def Obligations.DecodeOfEncodeIsTheRow : Prop :=
  ∀ (i : Instr) (d8 : Byte) (a16 : Word) (rest : List Byte), decode (encode i d8 a16 ++ rest) = .row i

/-- Each byte string begins with the opcode bytes of the row it decodes to, so no two encodings share a row
(D2, log 1). -/
def Obligations.DecodedBytesAreTheRowsOpcode : Prop :=
  ∀ (bytes : List Byte) (i : Instr), decode bytes = .row i → ∃ rest, bytes = i.opcodeBytes ++ rest

/-- Words written out bit by bit from 30_encoding.md R67 (D2, log 1) and R69. -/
def Obligations.WrittenOutOpcodesDecode : Prop :=
  decode [0b01111000] = .row .ldAB ∧ decode [0b01100110] = .row .ldHMem ∧ decode [0b01110101] = .row .ldMemL ∧
    decode [0b00011110, 0b01011010] = .row .ldEImm ∧ decode [0b00110110, 0b10101011] = .row .ldMemImm ∧
    decode [0b10000011] = .row .addAE ∧ decode [0b11001010, 0b00110100, 0b00010010] = .row .jpZ ∧
    decode [0b11000011, 0b00110100, 0b00010010] = .row .jp ∧ decode [0b11001011, 0b01111100] = .row (.prefixCB 0x7C)

/-- 30_encoding.md R68, R76: no prefixed byte is recognized, nor 0xCB and 0x00 unprefixed (the spec's decision D4 for
the empty table). -/
def Obligations.PrefixedTableIsEmpty : Prop :=
  (∀ op : Byte, decodeOpcode op true = none) ∧ decodeOpcode 0xCB false = none ∧ decodeOpcode 0x00 false = none

/-- 30_encoding.md R70: the unprefixed values without an entry are 0xCB and exactly the 172 listed (the spec's
decision D3). -/
def Obligations.UnrecognizedOpcodesAreTheListed : Prop :=
  ∀ op : Byte, decodeOpcode op false = none ↔
    op = 0xCB ∨ inRange 0x00 0x05 op ∨ inRange 0x07 0x0D op ∨ inRange 0x0F 0x15 op ∨ inRange 0x17 0x1D op ∨
      inRange 0x1F 0x25 op ∨ inRange 0x27 0x2D op ∨ inRange 0x2F 0x35 op ∨ inRange 0x37 0x3D op ∨ op = 0x3F ∨
      op = 0x76 ∨ op = 0x86 ∨ inRange 0x88 0xC1 op ∨ inRange 0xC4 0xC9 op ∨ inRange 0xCC 0xD1 op ∨
      inRange 0xD3 0xD9 op ∨ inRange 0xDB 0xFF op

/-- 30_encoding.md R62, R63, R64, R77: the fields of the opcode byte select the instruction (D2, log 1). -/
def Obligations.OpcodeFieldsSelectTheInstruction : Prop :=
  (Reg.b.code = 0 ∧ Reg.c.code = 1 ∧ Reg.d.code = 2 ∧ Reg.e.code = 3 ∧ Reg.h.code = 4 ∧ Reg.l.code = 5 ∧
      Reg.a.code = 7) ∧
    (∀ t r : Reg, Decodes (0b01#2 ++ t.code ++ r.code) (.ld (.reg t) (.reg r))) ∧
    (∀ t : Reg, Decodes (0b01#2 ++ t.code ++ 0b110#3) (.ld (.reg t) .memHL)) ∧
    (∀ r : Reg, Decodes (0b01#2 ++ 0b110#3 ++ r.code) (.ld .memHL (.reg r))) ∧
    (∀ t : Reg, Decodes (0b00#2 ++ t.code ++ 0b110#3) (.ld (.reg t) .imm8)) ∧
    Decodes (0b00#2 ++ 0b110#3 ++ 0b110#3) (.ld .memHL .imm8) ∧
    (∀ r : Reg, Decodes (0b10#2 ++ 0b000#3 ++ r.code) (.add r)) ∧
    Decodes (0b110#3 ++ 0b00#2 ++ 0b010#3) (.jp .notZero) ∧ Decodes (0b110#3 ++ 0b01#2 ++ 0b010#3) (.jp .zero) ∧
    Decodes (0b110#3 ++ 0b10#2 ++ 0b010#3) (.jp .notCarry) ∧ Decodes (0b110#3 ++ 0b11#2 ++ 0b010#3) (.jp .carry) ∧
    Decodes 0xC3 (.jp .always)

/-- 30_encoding.md R77, 42_ld.md R126: of the 84 values of the variant every one but LD (HL),(HL) has exactly one
opcode, and that one has none (the spec's decisions D2, D19). -/
def Obligations.EveryInstructionButOneHasOneOpcode : Prop :=
  (∀ ins : Instruction, ins ≠ .ld .memHL .memHL → ∃! op : Byte, Decodes op ins) ∧
    ∀ op : Byte, ¬ Decodes op (.ld .memHL .memHL)

/-- 30_encoding.md R60, R73: the first byte tells the length; it is 1, or 2 with an immediate byte, or 3 for a jump,
and an unrecognized byte has none (D2, log 1). -/
def Obligations.FirstByteTellsTheLength : Prop :=
  (∀ (op : Byte) (i : Instr) (ins : Instruction) (d8 : Byte) (a16 : Word), decodeOpcode op false = some i →
    i.instruction = some ins →
      opcodeLength op = some (encode i d8 a16).length ∧
        (encode i d8 a16).length = (match ins with
          | .add _ => 1
          | .ld _ (.reg _) => 1
          | .ld _ .memHL => 1
          | .ld _ .imm8 => 2
          | .jp _ => 3)) ∧
    ∀ op : Byte, decodeOpcode op false = none → opcodeLength op = none

/-- 30_encoding.md R61, R65, R66: where the bytes of an instruction stand at PC, Execute reads back exactly the d8 or
the a16 they were encoded with, low byte first. -/
def Obligations.EncodedOperandsAreReadBack : Prop :=
  ∀ (s : State) (i : Instr) (d8 : Byte) (a16 : Word), holdsAt s s.pc (encode i d8 a16) = true →
    (∀ t, i.instruction = some (.ld t .imm8) → readImm8 s = .ok d8) ∧
      ∀ c, i.instruction = some (.jp c) → readImm16 s = .ok a16

/-! ### The Step -/

/-- 40_step_cycle.md R81 to R83: where bytes at PC decode to a row, Step is that row's `exec`; nothing is added around
it, since `exec` commits next_pc itself (log 5). -/
def Obligations.StepRunsTheDecodedRow : Prop :=
  ∀ (s : State) (bytes : List Byte) (i : Instr), holdsAt s s.pc bytes = true → decode bytes = .row i →
    step s = exec i s

/-- 40_step_cycle.md R87: the whole Step as one block. -/
def Obligations.StepIsTheBlockOfTheSpec : Prop :=
  ∀ s : State, step s =
    match memRead s s.pc with
    | .error flt => .fault flt
    | .ok b0 =>
      match (if b0 = 0xCB then (memRead s (s.pc + 1)).map fun op => (op, true) else .ok (b0, false)) with
      | .error flt => .fault flt
      | .ok (op, isPrefixed) =>
        match (decodeOpcode op isPrefixed).bind Instr.instruction with
        | none => .fault (.unrecognizedOpcode op isPrefixed)
        | some ins =>
          match execute ins s with
          | .error flt => .fault flt
          | .ok (u, nextPc) => .next { u with pc := nextPc }

/-- 40_step_cycle.md R85: next_pc of every Instruction; Execute itself does not move PC (R23). -/
def Obligations.NextPcOfEveryInstruction : Prop :=
  ∀ (ins : Instruction) (s u : State) (nextPc : Word), execute ins s = .ok (u, nextPc) →
    u.pc = s.pc ∧ nextPc = (match ins with
      | .add _ => s.pc + 1
      | .ld _ (.reg _) => s.pc + 1
      | .ld _ .memHL => s.pc + 1
      | .ld _ .imm8 => s.pc + 2
      | .jp c => if condHolds c s.f then jumpTarget s else s.pc + 3)

/-- The same seen from a Step: only a taken jump moves PC elsewhere than past the instruction
(43_jp.md R147; 40_step_cycle.md R85). -/
def Obligations.OnlyATakenJumpLeavesTheStraightPath : Prop :=
  ∀ s t : State, step s = .next t →
    ∃ ins, fetchedInstruction s = some ins ∧
      ((∃ c, ins = .jp c ∧ condHolds c s.f = true ∧ t.pc = jumpTarget s) ∨ t.pc = s.pc + BitVec.ofNat 16 ins.length)

/-- 43_jp.md R140: the five conditions; N and H take no part. -/
def Obligations.JumpConditionsReadZeroAndCarryOnly : Prop :=
  ∀ f : Flags, condHolds .always f = true ∧ condHolds .zero f = f.z ∧ condHolds .notZero f = !f.z ∧
    condHolds .carry f = f.c ∧ condHolds .notCarry f = !f.c ∧
    ∀ (c : JumpCond) (n h : Bool), condHolds c { f with n := n, h := h } = condHolds c f

/-! ### ADD -/

/-- 41_add.md R100: the adder's result and four flags, and the equivalent forms of carry and half-carry. -/
def Obligations.AdderResultAndFlags : Prop :=
  ∀ x y : Byte,
    (add8Result x y).toNat = (x.toNat + y.toNat) % 256 ∧
      (add8Flags x y).z = decide (add8Result x y = 0) ∧ (add8Flags x y).n = false ∧
      (add8Flags x y).h = decide ((x &&& 0xF).toNat + (y &&& 0xF).toNat > 0xF) ∧
      (add8Flags x y).c = decide (x.toNat + y.toNat > 255) ∧
      (add8Flags x y).c = decide ((add8Result x y).toNat < x.toNat) ∧
      (add8Flags x y).c = (x.toNat + y.toNat).testBit 8 ∧
      (add8Flags x y).h = ((x &&& 0xF).toNat + (y &&& 0xF).toNat).testBit 4 ∧
      (add8Flags x y).h = decide ((x ^^^ y ^^^ add8Result x y) &&& 0x10 ≠ 0)

/-- 41_add.md R101: each of the seven additions runs in every state, and the whole next state is given: A and the four
flags written, PC past the byte, everything else unchanged. -/
def Obligations.AddWritesAAndAllFlags : Prop :=
  ∀ s : State,
    exec .addAB s = .next (added s s.b) ∧ exec .addAC s = .next (added s s.c) ∧ exec .addAD s = .next (added s s.d) ∧
      exec .addAE s = .next (added s s.e) ∧ exec .addAH s = .next (added s s.h) ∧
      exec .addAL s = .next (added s s.l) ∧ exec .addAA s = .next (added s s.a)

/-- 41_add.md R108: ADD A,A doubles A; half-carry is old bit 3, carry old bit 7. -/
def Obligations.AddAADoublesA : Prop :=
  ∀ s : State, exec .addAA s = .next { s with
    a := s.a <<< 1
    f := ⟨decide (s.a &&& 0x7F = 0), false, s.a.getLsbD 3, s.a.getLsbD 7⟩
    pc := s.pc + 1 }

/-! ### LD -/

/-- 42_ld.md R121: LD r,r' runs in every state; the whole next state is given. -/
def Obligations.LoadRegisterFromRegister : Prop :=
  ∀ (i : Instr) (t r : Reg) (s : State), i.instruction = some (.ld (.reg t) (.reg r)) →
    exec i s = .next { s.setReg t (s.getReg r) with pc := s.pc + 1 }

/-- 42_ld.md R122: LD r,(HL) reads the byte at H:L, formed from the old H and L, or faults at HL = 0xFFFF (the spec's
decision D1). -/
def Obligations.LoadRegisterFromMemory : Prop :=
  ∀ (i : Instr) (t : Reg) (s : State), i.instruction = some (.ld (.reg t) .memHL) →
    (wordOf s.h s.l ≠ 0xFFFF →
      exec i s = .next { s.setReg t (byteAt s (wordOf s.h s.l)) with pc := s.pc + 1 }) ∧
    (wordOf s.h s.l = 0xFFFF → exec i s = .fault (.addressFault 0xFFFF))

/-- 42_ld.md R123: LD (HL),r stores the register at H:L and changes nothing else, or faults at HL = 0xFFFF (D1). -/
def Obligations.LoadMemoryFromRegister : Prop :=
  ∀ (i : Instr) (r : Reg) (s : State), i.instruction = some (.ld .memHL (.reg r)) →
    (wordOf s.h s.l ≠ 0xFFFF →
      ∃ u, exec i s = .next u ∧ StoredOnly s u (wordOf s.h s.l) (s.getReg r) (s.pc + 1)) ∧
    (wordOf s.h s.l = 0xFFFF → exec i s = .fault (.addressFault 0xFFFF))

/-- 42_ld.md R124: LD r,d8 loads the byte at PC + 1, or faults at PC = 0xFFFE (D1). -/
def Obligations.LoadRegisterFromImmediate : Prop :=
  ∀ (i : Instr) (t : Reg) (s : State), i.instruction = some (.ld (.reg t) .imm8) →
    (s.pc ≠ 0xFFFE → exec i s = .next { s.setReg t (byteAt s (s.pc + 1)) with pc := s.pc + 2 }) ∧
    (s.pc = 0xFFFE → exec i s = .fault (.addressFault 0xFFFF))

/-- 42_ld.md R125 (the spec's decision D19, log 3): LD (HL),d8 stores the byte at PC + 1 at H:L and changes nothing else,
or faults at PC = 0xFFFE or HL = 0xFFFF (D1). -/
def Obligations.LoadMemoryFromImmediate : Prop :=
  ∀ s : State,
    (s.pc ≠ 0xFFFE → wordOf s.h s.l ≠ 0xFFFF →
      ∃ u, exec .ldMemImm s = .next u ∧
        StoredOnly s u (wordOf s.h s.l) (byteAt s (s.pc + 1)) (s.pc + 2)) ∧
    (s.pc = 0xFFFE ∨ wordOf s.h s.l = 0xFFFF → exec .ldMemImm s = .fault (.addressFault 0xFFFF))

/-- 42_ld.md R126 (the spec's decision D19): LD (HL),(HL), which no opcode reaches, has PC + 1 as its net effect, or
faults at HL = 0xFFFF. Memory is taken in its canonical form (log 6). -/
def Obligations.MemoryToMemoryLoadHasNoNetEffect : Prop :=
  ∀ s : State,
    (wordOf s.h s.l ≠ 0xFFFF → Memory.wf s.mem →
      finish (execute (.ld .memHL .memHL) s) = .next { s with pc := s.pc + 1 }) ∧
    (wordOf s.h s.l = 0xFFFF → finish (execute (.ld .memHL .memHL) s) = .fault (.addressFault 0xFFFF))

/-! ### JP -/

/-- 43_jp.md R141: a jump whose condition holds goes to the word at PC + 1 and PC + 2; one whose condition does not hold
goes to PC + 3 whatever memory holds and wherever it stands; nothing but PC changes. -/
def Obligations.JumpGoesToTargetOrFallsThrough : Prop :=
  ∀ s : State,
    (s.pc ≠ 0xFFFD → s.pc ≠ 0xFFFE →
      exec .jp s = .next { s with pc := jumpTarget s } ∧
      (s.f.z = false → exec .jpNZ s = .next { s with pc := jumpTarget s }) ∧
      (s.f.z = true → exec .jpZ s = .next { s with pc := jumpTarget s }) ∧
      (s.f.c = false → exec .jpNC s = .next { s with pc := jumpTarget s }) ∧
      (s.f.c = true → exec .jpC s = .next { s with pc := jumpTarget s })) ∧
    (s.f.z = true → exec .jpNZ s = .next { s with pc := s.pc + 3 }) ∧
    (s.f.z = false → exec .jpZ s = .next { s with pc := s.pc + 3 }) ∧
    (s.f.c = true → exec .jpNC s = .next { s with pc := s.pc + 3 }) ∧
    (s.f.c = false → exec .jpC s = .next { s with pc := s.pc + 3 })

/-- 43_jp.md R142 to R146: a taken jump at 0xFFFD or 0xFFFE faults on the operand byte at 0xFFFF (D1). -/
def Obligations.TakenJumpFaultsAtTheTop : Prop :=
  ∀ s : State, s.pc = 0xFFFD ∨ s.pc = 0xFFFE →
    exec .jp s = .fault (.addressFault 0xFFFF) ∧
      (s.f.z = false → exec .jpNZ s = .fault (.addressFault 0xFFFF)) ∧
      (s.f.z = true → exec .jpZ s = .fault (.addressFault 0xFFFF)) ∧
      (s.f.c = false → exec .jpNC s = .fault (.addressFault 0xFFFF)) ∧
      (s.f.c = true → exec .jpC s = .fault (.addressFault 0xFFFF))

/-! ### Faults -/

/-- 30_encoding.md R68, R69, 60_exceptions.md R161: the row of the prefix marker stops with the second byte, in every
state (the empty table is the spec's decision D4). -/
def Obligations.PrefixMarkerStops : Prop :=
  ∀ (op : Byte) (s : State), exec (.prefixCB op) s = .fault (.unrecognizedOpcode op true)

/-- 60_exceptions.md R161: a Step raises UnrecognizedOpcode exactly when the byte it looked up has no entry, and records
that byte and the prefixed mark. -/
def Obligations.UnrecognizedOpcodeRecordsTheByte : Prop :=
  ∀ (s : State) (op : Byte) (isPrefixed : Bool),
    step s = .fault (.unrecognizedOpcode op isPrefixed) ↔
      (isPrefixed = false ∧ memRead s s.pc = .ok op ∧ op ≠ 0xCB ∧ decodeOpcode op false = none) ∨
      (isPrefixed = true ∧ memRead s s.pc = .ok 0xCB ∧ memRead s (s.pc + 1) = .ok op)

/-- 60_exceptions.md R163: a Step raises AddressFault exactly in the states the rule lists, always with 0xFFFF (the
spec's decision D1, log 2). -/
def Obligations.AddressFaultExactlyInTheListedStates : Prop :=
  ∀ (s : State) (addr : Word),
    step s = .fault (.addressFault addr) ↔
      addr = 0xFFFF ∧
        (s.pc = 0xFFFF ∨ (s.pc = 0xFFFE ∧ byteAt s 0xFFFE = 0xCB) ∨
          ∃ ins, fetchedInstruction s = some ins ∧
            (((∃ t, ins = .ld t .imm8) ∧ s.pc = 0xFFFE) ∨
              ((∃ c, ins = .jp c ∧ condHolds c s.f = true) ∧ (s.pc = 0xFFFE ∨ s.pc = 0xFFFD)) ∨
              ((∃ t, ins = .ld t .memHL) ∧ wordOf s.h s.l = 0xFFFF) ∨
              ((∃ src, ins = .ld .memHL src) ∧ wordOf s.h s.l = 0xFFFF)))

/-- 60_exceptions.md R160, R168: no Step and no instruction is refused; a stop is one of the two faults. -/
def Obligations.NothingIsRefused : Prop :=
  (∀ (s : State) (r : Refusal), step s ≠ .refused r) ∧ ∀ (i : Instr) (s : State) (r : Refusal), exec i s ≠ .refused r

/-- 60_exceptions.md R164: the order of checks at the top of memory. -/
def Obligations.FaultOrderAtTheTopOfMemory : Prop :=
  ∀ s : State,
    (s.pc = 0xFFFF → step s = .fault (.addressFault 0xFFFF)) ∧
      (s.pc = 0xFFFE → byteAt s 0xFFFE = 0xCB → step s = .fault (.addressFault 0xFFFF)) ∧
      (s.pc = 0xFFFE → byteAt s 0xFFFE = 0x00 → step s = .fault (.unrecognizedOpcode 0x00 false))

/-- 70_reset_and_hazards.md R196 (a), (b): a Step succeeds exactly when the program keeps its two obligations (they rest
on the spec's decisions D1 to D4). -/
def Obligations.StepSucceedsExactlyWhenTheProgramKeepsR196 : Prop :=
  ∀ s : State, (∃ t, step s = .next t) ↔ Safety.keepsRunning s = true

/-- 70_reset_and_hazards.md R192 (1): a CORE stepped straight after Construct faults on 0x00. -/
def Obligations.FirstStepAfterConstructFaults : Prop :=
  step State.reset = .fault (.unrecognizedOpcode 0x00 false)

/-- 60_exceptions.md R162: the diagnostic text of the rule's examples, and none for AddressFault. -/
def Obligations.DiagnosticTextOfTheExamples : Prop :=
  diagnosticChars (.unrecognizedOpcode 0x00 false) = some ['0', 'x', '0', '0'] ∧
    diagnosticChars (.unrecognizedOpcode 0x00 true) = some ['0', 'x', 'C', 'B', '0', '0'] ∧
    diagnosticChars (.unrecognizedOpcode 0xFD false) = some ['0', 'x', 'F', 'D'] ∧
    diagnosticChars (.unrecognizedOpcode 0x7C true) = some ['0', 'x', 'C', 'B', '7', 'C'] ∧
    ∀ addr : Word, diagnosticChars (.addressFault addr) = none

/-! ### Whole-machine rules -/

/-- 10_state.md R21: ADD is the only instruction that writes a flag. -/
def Obligations.OnlyAdditionWritesFlags : Prop :=
  ∀ s t : State, step s = .next t → (∀ r, fetchedInstruction s ≠ some (.add r)) → t.f = s.f

/-- 20_memory.md R51: in a run a byte of memory changes only by a store through HL, at HL. -/
def Obligations.MemoryChangesOnlyByAStoreAtHL : Prop :=
  ∀ (s t : State) (addr : Word), step s = .next t → memRead t addr ≠ memRead s addr →
    addr = wordOf s.h s.l ∧ ∃ src, fetchedInstruction s = some (.ld .memHL src)

/-- 10_state.md R13: a Step changes no general register but the one its instruction names as target, or A for ADD. -/
def Obligations.OnlyTheNamedRegisterChanges : Prop :=
  ∀ (s t : State) (r : Reg), step s = .next t → t.getReg r ≠ s.getReg r →
    (∃ src, fetchedInstruction s = some (.ld (.reg r) src)) ∨ (r = .a ∧ ∃ q, fetchedInstruction s = some (.add q))

/-- 20_memory.md R54: a byte stored by LD (HL),s is the byte the very next Step fetches there. -/
def Obligations.StoreIsSeenByTheNextFetch : Prop :=
  ∀ (s t : State) (src : LoadSource) (v : Byte), fetchedInstruction s = some (.ld .memHL src) →
    readSource src s = .ok v → step s = .next t →
      memRead t (wordOf s.h s.l) = .ok v ∧
        (t.pc = wordOf s.h s.l → v ≠ 0xCB → fetch t = .ok { op := v, isPrefixed := false })

/-- 40_step_cycle.md R88, 43_jp.md R142: JP to its own address leaves the whole state unchanged for any number of
Steps. -/
def Obligations.JumpToSelfIdlesForever : Prop :=
  ∀ (n : Nat) (s : State), holdsAt s s.pc [0xC3, loByte s.pc, hiByte s.pc] = true → Safety.RunsTo n s s

/-- 70_reset_and_hazards.md R194, R198, 20_memory.md R47: a Step makes at most three accesses, and a write is the last
of them. -/
def Obligations.AtMostThreeAccessesTheWriteLast : Prop :=
  ∀ s : State, (stepAccesses s).length ≤ 3 ∧
    ∀ (before after : List Access) (addr : Word), stepAccesses s = before ++ .write addr :: after → after = []

/-- 20_memory.md R43, R47: a Step raises AddressFault exactly when one of its accesses goes to 0xFFFF (D1, log 2;
the accesses are log 9). -/
def Obligations.AddressFaultIffAnAccessIsUnbacked : Prop :=
  ∀ s : State, (∃ addr, step s = .fault (.addressFault addr)) ↔ ∃ x ∈ stepAccesses s, accessAddr x = 0xFFFF

/-- 20_memory.md R47, R50, 43_jp.md R148: a Step depends on no byte it does not read. With memory `m` that agrees at
every address read, the Step ends alike: the same fault, or the same registers, flags and PC, the same byte written,
and every other byte as it was (the accesses are log 9). -/
def Obligations.StepDependsOnlyOnTheBytesItReads : Prop :=
  ∀ (s : State) (m : Memory),
    (∀ addr : Word, .read addr ∈ stepAccesses s → Memory.read m addr.toNat = byteAt s addr) →
      match step s, step (s.setMem m) with
      | .next t, .next t' =>
        t'.setMem [] = t.setMem [] ∧
          ∀ addr : Word,
            (.write addr ∈ stepAccesses s → memRead t' addr = memRead t addr) ∧
              (.write addr ∉ stepAccesses s →
                memRead t addr = memRead s addr ∧ memRead t' addr = memRead (s.setMem m) addr)
      | .fault flt, .fault flt' => flt = flt'
      | _, _ => False

/-! ### The host -/

/-- 40_step_cycle.md R86, 60_exceptions.md R165, R166: a faulting Step changes nothing, and no further Step is taken
(the session is log 12). -/
def Obligations.FaultingStepKeepsTheStateAndEndsTheRun : Prop :=
  ∀ (x x' : Session) (flt : Fault), sessionStep x = .ok (x', some flt) →
    x'.cpu = x.cpu ∧ x'.phase = .stopped flt ∧ sessionStep x' = .error .stepAfterFault

/-- 20_memory.md R51, 60_exceptions.md R176: a session starts loading; as long as it is, any Load of backed addresses is
allowed, stores its bytes in the CORE and leaves the session loading; after any Step no Load is allowed; a Step is
allowed until a Step has faulted, and is then the CORE's Step (the session is log 12). -/
def Obligations.LoadOnlyBeforeTheFirstStep : Prop :=
  construct.phase = .loading ∧
    (∀ (x : Session) (items : List (Word × Byte)), x.phase = .loading → (∀ item ∈ items, item.1 ≠ 0xFFFF) →
      ∃ t, load items x.cpu = .ok t ∧ sessionLoad items x = .ok (.ok { x with cpu := t })) ∧
    (∀ (x x' : Session) (o : Option Fault) (items : List (Word × Byte)), sessionStep x = .ok (x', o) →
      sessionLoad items x' = .error .loadAfterStep) ∧
    (∀ x : Session, (∀ flt, x.phase ≠ .stopped flt) →
      (∃ t, step x.cpu = .next t ∧ sessionStep x = .ok ({ cpu := t, phase := .running }, none)) ∨
        ∃ flt, step x.cpu = .fault flt ∧
          sessionStep x = .ok ({ cpu := x.cpu, phase := .stopped flt }, some flt)) ∧
    ∀ (x : Session) (flt : Fault), x.phase = .stopped flt → sessionStep x = .error .stepAfterFault

/-- 10_state.md R30: Inspect answers the register, flag, byte view, PC or backed memory byte, and an unbacked address is
refused like any other read. -/
def Obligations.InspectAnswersTheState : Prop :=
  ∀ (s : State) (r : Reg) (addr : Word),
    inspect (.reg r) s = .ok (.byte (s.getReg r)) ∧ inspect (.flag .zero) s = .ok (.bool s.f.z) ∧
      inspect (.flag .subtract) s = .ok (.bool s.f.n) ∧ inspect (.flag .halfCarry) s = .ok (.bool s.f.h) ∧
      inspect (.flag .carry) s = .ok (.bool s.f.c) ∧ inspect .flagsByte s = .ok (.byte s.f.toByte) ∧
      inspect .pc s = .ok (.word s.pc) ∧
      (addr ≠ 0xFFFF → inspect (.mem addr) s = .ok (.byte (byteAt s addr))) ∧
      (addr = 0xFFFF → inspect (.mem addr) s = .error (.addressFault 0xFFFF))

/-- 20_memory.md R57: a Step of one instance is that instance's Step, and no other instance changes. -/
def Obligations.InstancesShareNothing : Prop :=
  ∀ (k : Nat) (cpus cpus' : List State), stepInstance k cpus = some (.next cpus') →
    (∃ s t, cpus[k]? = some s ∧ step s = .next t ∧ cpus'[k]? = some t) ∧
      (∀ j, j ≠ k → cpus'[j]? = cpus[j]?) ∧ cpus'.length = cpus.length

/-- The model's own (log 7): an opcode-table word placed at PC is the instruction the very next Step runs, wherever three
bytes fit. -/
def Obligations.PlacedWordIsTheNextInstruction : Prop :=
  ∀ (s : State) (nbits w : Nat) (i : Instr), s.pc.toNat ≤ 0xFFFC → decodeTableWord nbits w = some i →
    step (s.withFetchWord nbits w) = exec i (s.withFetchWord nbits w)
end

