-- ==== Sys2Proof/Laws/Decode.lean ====
section
/-! SUPPORT. Laws/Decode.lean: what a row found in an opcode table is. -/

namespace Sys2Proof

theorem tableLookup_mem {op : Byte} {i : Instr} {rows : List (Byte × Instr)} (h : tableLookup op rows = some i) :
    (op, i) ∈ rows := by
  induction rows with
  | nil => simp [tableLookup] at h
  | cons row rows ih =>
    unfold tableLookup at h
    split_ifs at h with hr
    · obtain rfl := Option.some.inj h
      exact List.mem_cons.2 (.inl (by rw [← hr]))
    · exact List.mem_cons.2 (.inr (ih h))

/-- No byte is found in the prefixed table (30_encoding.md R68). -/
theorem decodeOpcode_prefixed (op : Byte) : decodeOpcode op true = none := rfl

/-- Every row of the table stands for a well-formed instruction whose fields give its opcode byte. -/
theorem unprefixedTable_sound :
    ∀ row ∈ unprefixedTable, ∃ ins, row.2.instruction = some ins ∧ ins.wellFormed = true ∧
      ins.opcode = some row.1 ∧ row.2.opcodeBytes = [row.1] := by
  intro row h
  simp only [unprefixedTable, rowsLoadImmediate, rowsLoadFour, rowsLoadFive, rowsLoadSix, rowsLoadSeven, rowsAdd,
    rowsJump, List.mem_append, List.mem_cons, List.not_mem_nil, or_false] at h
  rcases h with (((((h | h) | h) | h) | h) | h) | h <;>
    repeat' (rcases h with rfl | h; exact ⟨_, rfl, rfl, rfl, rfl⟩)

/-- What the decoder finds for an unprefixed byte. -/
theorem decodeOpcode_some {op : Byte} {i : Instr} (h : decodeOpcode op false = some i) :
    ∃ ins, i.instruction = some ins ∧ ins.wellFormed = true ∧ ins.opcode = some op ∧ i.opcodeBytes = [op] :=
  unprefixedTable_sound (op, i) (tableLookup_mem h)

end Sys2Proof
end

