-- ==== Sys2Proof/Laws/Memory.lean ====
section
/-! SUPPORT. Laws/Memory.lean: reading after writing, and that every memory operation keeps the canonical form. -/

namespace Sys2Proof.Machine

@[simp] theorem Memory.read_nil (k : Nat) : Memory.read [] k = 0 := rfl

theorem Memory.read_erase_same (m : Memory) (k : Nat) : Memory.read (Memory.erase m k) k = 0 := by
  induction m with
  | nil => rfl
  | cons cell m ih =>
    by_cases h : cell.1 = k
    · simpa [Memory.erase, h] using ih
    · simpa [Memory.erase, Memory.read, h] using ih

theorem Memory.read_erase_other (m : Memory) {k addr : Nat} (h : k ≠ addr) :
    Memory.read (Memory.erase m addr) k = Memory.read m k := by
  induction m with
  | nil => rfl
  | cons cell m ih =>
    by_cases hc : cell.1 = addr
    · have hk : ¬ cell.1 = k := by omega
      simpa [Memory.erase, Memory.read, hc, hk, Ne.symm h] using ih
    · by_cases hk : cell.1 = k
      · subst hk
        simp [Memory.erase, Memory.read, h]
      · simpa [Memory.erase, Memory.read, hc, hk] using ih

theorem Memory.read_insert_same (m : Memory) (addr : Nat) (v : Byte) (h : ∀ cell ∈ m, cell.1 ≠ addr) :
    Memory.read (Memory.insert m addr v) addr = v := by
  induction m with
  | nil => simp [Memory.insert, Memory.read]
  | cons cell m ih =>
    have h1 : cell.1 ≠ addr := h cell (by simp)
    have h2 := ih fun c hc => h c (by simp [hc])
    by_cases hlt : cell.1 < addr
    · simpa [Memory.insert, Memory.read, hlt, h1] using h2
    · simp [Memory.insert, Memory.read, hlt]

theorem Memory.read_insert_other (m : Memory) {k addr : Nat} (v : Byte) (h : k ≠ addr) :
    Memory.read (Memory.insert m addr v) k = Memory.read m k := by
  induction m with
  | nil => simp [Memory.insert, Memory.read, Ne.symm h]
  | cons cell m ih =>
    by_cases hlt : cell.1 < addr
    · simp [Memory.insert, Memory.read, hlt, ih]
    · simp [Memory.insert, Memory.read, hlt, Ne.symm h]

theorem Memory.mem_erase {m : Memory} {addr : Nat} {cell : Host.Cell} :
    cell ∈ Memory.erase m addr ↔ cell ∈ m ∧ cell.1 ≠ addr := by
  simp [Memory.erase]

/-- The byte written is read back and every other address reads as before (20_memory.md R42). -/
@[simp] theorem Memory.read_write (m : Memory) (addr k : Nat) (v : Byte) :
    Memory.read (Memory.write m addr v) k = if k = addr then v else Memory.read m k := by
  unfold Memory.write
  split_ifs with hv hk hk
  · subst hk hv
    exact Memory.read_erase_same m k
  · exact Memory.read_erase_other m hk
  · subst hk
    exact Memory.read_insert_same _ k v fun c hc => (Memory.mem_erase.1 hc).2
  · rw [Memory.read_insert_other _ v hk, Memory.read_erase_other m hk]

theorem Memory.mem_insert {m : Memory} {addr : Nat} {v : Byte} {cell : Host.Cell} :
    cell ∈ Memory.insert m addr v ↔ cell = (addr, v) ∨ cell ∈ m := by
  induction m with
  | nil => simp [Memory.insert]
  | cons x m ih =>
    by_cases hlt : x.1 < addr
    · simp only [Memory.insert, hlt, if_true, List.mem_cons, ih]
      tauto
    · simp [Memory.insert, hlt]

theorem Memory.wf_nil : Memory.wf [] := by decide

theorem Memory.wf_erase {m : Memory} (h : Memory.wf m) (addr : Nat) : Memory.wf (Memory.erase m addr) :=
  ⟨h.1.filter _, fun c hc => h.2 c (Memory.mem_erase.1 hc).1⟩

theorem Memory.wf_insert {m : Memory} (h : Memory.wf m) {addr : Nat} {v : Byte} (ha : addr < Config.memSize)
    (hv : v ≠ Config.resetByte) (hn : ∀ cell ∈ m, cell.1 ≠ addr) : Memory.wf (Memory.insert m addr v) := by
  refine ⟨?_, fun c hc => ?_⟩
  · induction m with
    | nil => simp [Memory.insert]
    | cons x m ih =>
      have hp := List.pairwise_cons.1 h.1
      have hx : x.1 ≠ addr := hn x (by simp)
      have hm := ih ⟨hp.2, fun c hc => h.2 c (by simp [hc])⟩ fun c hc => hn c (by simp [hc])
      by_cases hlt : x.1 < addr
      · simp only [Memory.insert, hlt, if_true]
        refine List.pairwise_cons.2 ⟨fun y hy => ?_, hm⟩
        rcases Memory.mem_insert.1 hy with rfl | hy
        · exact hlt
        · exact hp.1 y hy
      · simp only [Memory.insert, hlt, if_false]
        refine List.pairwise_cons.2 ⟨fun y hy => ?_, h.1⟩
        have hxa : addr < x.1 := by omega
        rcases List.mem_cons.1 hy with rfl | hy
        · exact hxa
        · exact lt_trans hxa (hp.1 y hy)
  · rcases Memory.mem_insert.1 hc with rfl | hc
    · exact ⟨ha, hv⟩
    · exact h.2 c hc

/-- A write to a backed address keeps the canonical form. -/
theorem Memory.wf_write {m : Memory} (h : Memory.wf m) {addr : Nat} (ha : addr < Config.memSize) (v : Byte) :
    Memory.wf (Memory.write m addr v) := by
  unfold Memory.write
  split_ifs with hv
  · exact Memory.wf_erase h addr
  · exact Memory.wf_insert (Memory.wf_erase h addr) ha hv fun c hc => (Memory.mem_erase.1 hc).2

end Sys2Proof.Machine
end

