-- ==== Sys2Proof/Laws/State.lean ====
section
/-! SUPPORT. Laws/State.lean: one lemma for each field and each update of State, so that no later proof unfolds a
record update. -/

namespace Sys2Proof.Machine

@[simp] theorem State.setFlags_a (s : State) (g : Flags) : (s.setFlags g).a = s.a := rfl
@[simp] theorem State.setFlags_b (s : State) (g : Flags) : (s.setFlags g).b = s.b := rfl
@[simp] theorem State.setFlags_c (s : State) (g : Flags) : (s.setFlags g).c = s.c := rfl
@[simp] theorem State.setFlags_d (s : State) (g : Flags) : (s.setFlags g).d = s.d := rfl
@[simp] theorem State.setFlags_e (s : State) (g : Flags) : (s.setFlags g).e = s.e := rfl
@[simp] theorem State.setFlags_h (s : State) (g : Flags) : (s.setFlags g).h = s.h := rfl
@[simp] theorem State.setFlags_l (s : State) (g : Flags) : (s.setFlags g).l = s.l := rfl
@[simp] theorem State.setFlags_f (s : State) (g : Flags) : (s.setFlags g).f = g := rfl
@[simp] theorem State.setFlags_pc (s : State) (g : Flags) : (s.setFlags g).pc = s.pc := rfl
@[simp] theorem State.setFlags_mem (s : State) (g : Flags) : (s.setFlags g).mem = s.mem := rfl
@[simp] theorem State.setFlags_getReg (s : State) (g : Flags) (r : Reg) : (s.setFlags g).getReg r = s.getReg r := by cases r <;> rfl
@[simp] theorem State.setFlags_getPair (s : State) (g : Flags) (p : Pair) : (s.setFlags g).getPair p = s.getPair p := by cases p <;> rfl
@[simp] theorem State.setFlags_hl (s : State) (g : Flags) : (s.setFlags g).hl = s.hl := rfl

@[simp] theorem State.setMem_a (s : State) (m : Memory) : (s.setMem m).a = s.a := rfl
@[simp] theorem State.setMem_b (s : State) (m : Memory) : (s.setMem m).b = s.b := rfl
@[simp] theorem State.setMem_c (s : State) (m : Memory) : (s.setMem m).c = s.c := rfl
@[simp] theorem State.setMem_d (s : State) (m : Memory) : (s.setMem m).d = s.d := rfl
@[simp] theorem State.setMem_e (s : State) (m : Memory) : (s.setMem m).e = s.e := rfl
@[simp] theorem State.setMem_h (s : State) (m : Memory) : (s.setMem m).h = s.h := rfl
@[simp] theorem State.setMem_l (s : State) (m : Memory) : (s.setMem m).l = s.l := rfl
@[simp] theorem State.setMem_f (s : State) (m : Memory) : (s.setMem m).f = s.f := rfl
@[simp] theorem State.setMem_pc (s : State) (m : Memory) : (s.setMem m).pc = s.pc := rfl
@[simp] theorem State.setMem_mem (s : State) (m : Memory) : (s.setMem m).mem = m := rfl
@[simp] theorem State.setMem_getReg (s : State) (m : Memory) (r : Reg) : (s.setMem m).getReg r = s.getReg r := by cases r <;> rfl
@[simp] theorem State.setMem_getPair (s : State) (m : Memory) (p : Pair) : (s.setMem m).getPair p = s.getPair p := by cases p <;> rfl
@[simp] theorem State.setMem_hl (s : State) (m : Memory) : (s.setMem m).hl = s.hl := rfl

@[simp] theorem commit_a (s : State) (w : Word) : (commit s w).a = s.a := rfl
@[simp] theorem commit_b (s : State) (w : Word) : (commit s w).b = s.b := rfl
@[simp] theorem commit_c (s : State) (w : Word) : (commit s w).c = s.c := rfl
@[simp] theorem commit_d (s : State) (w : Word) : (commit s w).d = s.d := rfl
@[simp] theorem commit_e (s : State) (w : Word) : (commit s w).e = s.e := rfl
@[simp] theorem commit_h (s : State) (w : Word) : (commit s w).h = s.h := rfl
@[simp] theorem commit_l (s : State) (w : Word) : (commit s w).l = s.l := rfl
@[simp] theorem commit_f (s : State) (w : Word) : (commit s w).f = s.f := rfl
@[simp] theorem commit_pc (s : State) (w : Word) : (commit s w).pc = w := rfl
@[simp] theorem commit_mem (s : State) (w : Word) : (commit s w).mem = s.mem := rfl
@[simp] theorem commit_getReg (s : State) (w : Word) (r : Reg) : (commit s w).getReg r = s.getReg r := by cases r <;> rfl
@[simp] theorem commit_getPair (s : State) (w : Word) (p : Pair) : (commit s w).getPair p = s.getPair p := by cases p <;> rfl
@[simp] theorem commit_hl (s : State) (w : Word) : (commit s w).hl = s.hl := rfl

@[simp] theorem State.setReg_a (s : State) (r : Reg) (v : Byte) : (s.setReg r v).a = if r = .a then v else s.a := by
  cases r <;> rfl
@[simp] theorem State.setReg_b (s : State) (r : Reg) (v : Byte) : (s.setReg r v).b = if r = .b then v else s.b := by
  cases r <;> rfl
@[simp] theorem State.setReg_c (s : State) (r : Reg) (v : Byte) : (s.setReg r v).c = if r = .c then v else s.c := by
  cases r <;> rfl
@[simp] theorem State.setReg_d (s : State) (r : Reg) (v : Byte) : (s.setReg r v).d = if r = .d then v else s.d := by
  cases r <;> rfl
@[simp] theorem State.setReg_e (s : State) (r : Reg) (v : Byte) : (s.setReg r v).e = if r = .e then v else s.e := by
  cases r <;> rfl
@[simp] theorem State.setReg_h (s : State) (r : Reg) (v : Byte) : (s.setReg r v).h = if r = .h then v else s.h := by
  cases r <;> rfl
@[simp] theorem State.setReg_l (s : State) (r : Reg) (v : Byte) : (s.setReg r v).l = if r = .l then v else s.l := by
  cases r <;> rfl
@[simp] theorem State.setReg_f (s : State) (r : Reg) (v : Byte) : (s.setReg r v).f = s.f := by cases r <;> rfl
@[simp] theorem State.setReg_pc (s : State) (r : Reg) (v : Byte) : (s.setReg r v).pc = s.pc := by cases r <;> rfl
@[simp] theorem State.setReg_mem (s : State) (r : Reg) (v : Byte) : (s.setReg r v).mem = s.mem := by cases r <;> rfl

/-- The registers are independent storage (10_state.md R11). -/
@[simp] theorem State.setReg_getReg (s : State) (r r' : Reg) (v : Byte) :
    (s.setReg r v).getReg r' = if r = r' then v else s.getReg r' := by
  cases r <;> cases r' <;> rfl

/-- Writing a register its own value changes nothing. -/
@[simp] theorem State.setReg_self (s : State) (r : Reg) : s.setReg r (s.getReg r) = s := by cases r <;> rfl

/-- Two states with the same registers, flags, program counter and memory are equal. -/
theorem State.eq_of_views (s t : State) (hr : ∀ r, s.getReg r = t.getReg r) (hf : s.f = t.f) (hpc : s.pc = t.pc)
    (hm : s.mem = t.mem) : s = t := by
  have ha := hr .a
  have hb := hr .b
  have hc := hr .c
  have hd := hr .d
  have he := hr .e
  have hh := hr .h
  have hl := hr .l
  cases s
  cases t
  simp_all [State.getReg]

@[simp] theorem reset_getReg (r : Reg) : State.reset.getReg r = 0 := by cases r <;> rfl
@[simp] theorem reset_f : State.reset.f = Flags.reset := rfl
@[simp] theorem reset_pc : State.reset.pc = 0 := rfl
@[simp] theorem reset_mem : State.reset.mem = [] := rfl

end Sys2Proof.Machine
end

