-- ==== Sys2Proof/Laws/Ops.lean ====
section
/-! SUPPORT. Laws/Ops.lean: what each shared operation of Machine/Ops.lean can do. -/

namespace Sys2Proof.Machine

theorem backed_iff (addr : Word) : backed addr = true ↔ addr ≠ 0xFFFF := by
  have h := addr.isLt
  have htop : (0xFFFF : Word).toNat = 65535 := rfl
  rw [backed, decide_eq_true_eq, ne_eq, ← BitVec.toNat_inj, htop, Config.memSize]
  omega

theorem backed_false_iff (addr : Word) : backed addr = false ↔ addr = 0xFFFF := by
  rw [← Bool.not_eq_true, backed_iff, not_not]

@[simp] theorem backed_top : backed 0xFFFF = false := rfl

theorem backed_lt {addr : Word} (h : backed addr = true) : addr.toNat < Config.memSize := by
  simpa [backed] using h

/-- MemRead answers the byte of a backed address and nothing else (20_memory.md R41). -/
theorem memRead_ok_iff {s : State} {addr : Word} {v : Byte} :
    memRead s addr = .ok v ↔ backed addr = true ∧ Memory.read s.mem addr.toNat = v := by
  unfold memRead
  split_ifs with h <;> simp [h]

/-- MemRead faults exactly at an address that is not backed (20_memory.md R41). -/
theorem memRead_error_iff {s : State} {addr : Word} {flt : Fault} :
    memRead s addr = .error flt ↔ backed addr = false ∧ flt = .addressFault addr := by
  unfold memRead
  split_ifs with h <;> simp [h, eq_comm]

/-- MemWrite changes the one byte of a backed address and nothing else (20_memory.md R42). -/
theorem memWrite_ok_iff {s t : State} {addr : Word} {v : Byte} :
    memWrite s addr v = .ok t ↔ backed addr = true ∧ t = s.setMem (Memory.write s.mem addr.toNat v) := by
  unfold memWrite
  split_ifs with h <;> simp [h, eq_comm]

/-- MemWrite faults exactly at an address that is not backed (20_memory.md R42). -/
theorem memWrite_error_iff {s : State} {addr : Word} {v : Byte} {flt : Fault} :
    memWrite s addr v = .error flt ↔ backed addr = false ∧ flt = .addressFault addr := by
  unfold memWrite
  split_ifs with h <;> simp [h, eq_comm]

/-- MemWrite keeps the canonical form. -/
theorem memWrite_wf {s t : State} {addr : Word} {v : Byte} (h : memWrite s addr v = .ok t) (hs : Memory.wf s.mem) :
    Memory.wf t.mem := by
  obtain ⟨hb, rfl⟩ := memWrite_ok_iff.1 h
  exact Memory.wf_write hs (backed_lt hb) v

/-- MemRead at an address other than 0xFFFF. -/
theorem memRead_of_ne_top {addr : Word} (h : addr ≠ 65535#16) (s : State) :
    memRead s addr = .ok (Memory.read s.mem addr.toNat) :=
  memRead_ok_iff.2 ⟨(backed_iff addr).2 h, rfl⟩

@[simp] theorem memRead_top (s : State) : memRead s 65535#16 = .error (.addressFault 65535#16) := rfl

@[simp] theorem memWrite_top (s : State) (v : Byte) : memWrite s 65535#16 v = .error (.addressFault 65535#16) := rfl

@[simp] theorem add16_eq (x y : Word) : add16 x y = x + y := rfl

/-- The byte after the one at PC is backed unless PC is 0xFFFE. -/
theorem pc_add_one_ne_top {p : Word} (h : p ≠ 65534#16) : p + 1#16 ≠ 65535#16 := fun e =>
  h (eq_sub_of_add_eq e)

/-- The second byte after the one at PC is backed unless PC is 0xFFFD. -/
theorem pc_add_two_ne_top {p : Word} (h : p ≠ 65533#16) : p + 2#16 ≠ 65535#16 := fun e =>
  h (eq_sub_of_add_eq e)

/-- Placing a byte at an address other than 0xFFFF writes it and goes on. -/
theorem placeBytes_cons {addr : Word} (h : addr ≠ 65535#16) (s : State) (v : Byte) (vs : List Byte) :
    placeBytes s addr (v :: vs) = placeBytes (s.setMem (Memory.write s.mem addr.toNat v)) (addr + 1#16) vs := by
  have hw : memWrite s addr v = .ok (s.setMem (Memory.write s.mem addr.toNat v)) :=
    memWrite_ok_iff.2 ⟨(backed_iff addr).2 h, rfl⟩
  simp [placeBytes, hw]

/-- Placing bytes keeps the canonical form. -/
theorem placeBytes_wf (vs : List Byte) (addr : Word) {s : State} (hs : Memory.wf s.mem) :
    Memory.wf (placeBytes s addr vs).mem := by
  induction vs generalizing s addr with
  | nil => exact hs
  | cons v vs ih =>
    unfold placeBytes
    split
    · rename_i h
      exact ih _ (memWrite_wf h hs)
    · exact ih _ hs

theorem wordOf_toNat (hi lo : Byte) : (wordOf hi lo).toNat = hi.toNat * 256 + lo.toNat := by
  rw [wordOf, BitVec.toNat_append, ← Nat.shiftLeft_add_eq_or_of_lt lo.isLt, Nat.shiftLeft_eq]

@[simp] theorem hiByte_wordOf (hi lo : Byte) : hiByte (wordOf hi lo) = hi := by
  apply BitVec.eq_of_toNat_eq
  have h1 := hi.isLt
  have h2 := lo.isLt
  simp only [hiByte, BitVec.extractLsb'_toNat, wordOf_toNat, Nat.shiftRight_eq_div_pow]
  omega

@[simp] theorem loByte_wordOf (hi lo : Byte) : loByte (wordOf hi lo) = lo := by
  apply BitVec.eq_of_toNat_eq
  have h2 := lo.isLt
  simp only [loByte, BitVec.extractLsb'_toNat, wordOf_toNat, Nat.shiftRight_eq_div_pow]
  omega

@[simp] theorem wordOf_hiByte_loByte (v : Word) : wordOf (hiByte v) (loByte v) = v := by
  apply BitVec.eq_of_toNat_eq
  have h := v.isLt
  simp only [hiByte, loByte, BitVec.extractLsb'_toNat, wordOf_toNat, Nat.shiftRight_eq_div_pow]
  omega

@[simp] theorem hl_toNat (s : State) : s.hl.toNat = s.h.toNat * 256 + s.l.toNat := wordOf_toNat _ _

theorem holdsAt_cons {s : State} {addr : Word} {v : Byte} {vs : List Byte} :
    holdsAt s addr (v :: vs) = true ↔ memRead s addr = .ok v ∧ holdsAt s (add16 addr 1) vs = true := by
  simp [holdsAt, memRead_ok_iff, and_assoc]

/-- A Step ends in a next state exactly by Commit of what Execute gave (40_step_cycle.md R84). -/
theorem finish_next_iff {x : Executed} {t : State} :
    finish x = .next t ↔ ∃ u w, x = .ok (u, w) ∧ t = commit u w := by
  rcases x with flt | ⟨u, w⟩ <;> simp [finish, raise, eq_comm]

theorem finish_fault_iff {x : Executed} {flt : Fault} : finish x = .fault flt ↔ x = .error flt := by
  rcases x with g | ⟨u, w⟩ <;> simp [finish, raise]

theorem finish_not_refused (x : Executed) (r : Refusal) : finish x ≠ .refused r := by
  rcases x with g | ⟨u, w⟩ <;> simp [finish, raise]

end Sys2Proof.Machine
end

