-- ==== Sys2Proof/Laws/Exec.lean ====
section
/-! SUPPORT. Laws/Exec.lean: what Execute, each family and a Step can do. -/

namespace Sys2Proof.Machine

theorem readImm16_ok_iff {s : State} {w : Word} :
    readImm16 s = .ok w ↔ ∃ lo hi, memRead s (add16 s.pc 1) = .ok lo ∧ memRead s (add16 s.pc 2) = .ok hi ∧
      w = wordOf hi lo := by
  unfold readImm16
  cases h1 : memRead s (add16 s.pc 1) <;> cases h2 : memRead s (add16 s.pc 2) <;> simp [eq_comm]

/-- The operand bytes of a jump are refused at the first unbacked one. -/
theorem readImm16_error_iff {s : State} {flt : Fault} :
    readImm16 s = .error flt ↔ memRead s (add16 s.pc 1) = .error flt ∨
      ∃ lo, memRead s (add16 s.pc 1) = .ok lo ∧ memRead s (add16 s.pc 2) = .error flt := by
  unfold readImm16
  cases h1 : memRead s (add16 s.pc 1) <;> cases h2 : memRead s (add16 s.pc 2) <;> simp

/-- A target write changes one register or one memory byte (40_step_cycle.md R92). -/
theorem writeTarget_ok_iff {tgt : LoadTarget} {v : Byte} {s t : State} :
    writeTarget tgt v s = .ok t ↔ (∃ r, tgt = .reg r ∧ t = s.setReg r v) ∨
      (tgt = .memHL ∧ backed s.hl = true ∧ t = s.setMem (Memory.write s.mem s.hl.toNat v)) := by
  cases tgt with
  | reg r =>
    refine ⟨fun h => .inl ⟨r, rfl, (Except.ok.inj h).symm⟩, ?_⟩
    rintro (⟨r', h, rfl⟩ | ⟨h, -⟩) <;> cases h
    rfl
  | memHL => simp [writeTarget, memWrite_ok_iff]

theorem executeLd_ok_iff {tgt : LoadTarget} {src : LoadSource} {s t : State} {w : Word} :
    executeLd tgt src s = .ok (t, w) ↔ ∃ v, readSource src s = .ok v ∧ writeTarget tgt v s = .ok t ∧
      w = add16 s.pc (loadAdvance src) := by
  unfold executeLd
  cases h1 : readSource src s with
  | error g => simp
  | ok v => cases h2 : writeTarget tgt v s <;> simp [h2, eq_comm]

theorem executeLd_error_iff {tgt : LoadTarget} {src : LoadSource} {s : State} {flt : Fault} :
    executeLd tgt src s = .error flt ↔ readSource src s = .error flt ∨
      ∃ v, readSource src s = .ok v ∧ writeTarget tgt v s = .error flt := by
  unfold executeLd
  cases h1 : readSource src s with
  | error g => simp
  | ok v => cases h2 : writeTarget tgt v s <;> simp [h2]

theorem executeJp_ok_iff {cnd : JumpCond} {s t : State} {w : Word} :
    executeJp cnd s = .ok (t, w) ↔ t = s ∧
      ((condHolds cnd s.f = true ∧ readImm16 s = .ok w) ∨ (condHolds cnd s.f = false ∧ w = add16 s.pc 3)) := by
  unfold executeJp
  cases hc : condHolds cnd s.f
  · simp [eq_comm]
  · cases h2 : readImm16 s <;> simp [eq_comm]

theorem executeJp_error_iff {cnd : JumpCond} {s : State} {flt : Fault} :
    executeJp cnd s = .error flt ↔ condHolds cnd s.f = true ∧ readImm16 s = .error flt := by
  unfold executeJp
  cases hc : condHolds cnd s.f
  · simp
  · cases h2 : readImm16 s <;> simp

/-- Each arm is Execute and Commit of the instruction its row stands for. -/
theorem exec_eq_finish {i : Instr} {ins : Instruction} (h : i.instruction = some ins) (s : State) :
    exec i s = finish (execute ins s) := by
  cases i <;> first | (cases h; rfl) | cases h

/-- Execute keeps the canonical form of memory. -/
theorem execute_wf {ins : Instruction} {s t : State} {w : Word} (h : execute ins s = .ok (t, w))
    (hs : Memory.wf s.mem) : Memory.wf t.mem := by
  cases ins with
  | add r =>
    simp only [execute, executeAdd, Except.ok.injEq, Prod.mk.injEq] at h
    simpa [← h.1] using hs
  | ld tgt src =>
    obtain ⟨v, -, hw, -⟩ := executeLd_ok_iff.1 h
    rcases writeTarget_ok_iff.1 hw with ⟨r, -, rfl⟩ | ⟨-, hb, rfl⟩
    · simpa using hs
    · exact Memory.wf_write hs (backed_lt hb) v
  | jp cnd =>
    obtain ⟨rfl, -⟩ := executeJp_ok_iff.1 h
    exact hs

/-- What Fetch can give (40_step_cycle.md R81). -/
theorem fetch_ok_iff {s : State} {got : Fetched} :
    fetch s = .ok got ↔
      (∃ b, memRead s s.pc = .ok b ∧ b ≠ Config.prefixByte ∧ got = ⟨b, false⟩) ∨
      (memRead s s.pc = .ok Config.prefixByte ∧ ∃ op, memRead s (add16 s.pc 1) = .ok op ∧ got = ⟨op, true⟩) := by
  unfold fetch
  cases h1 : memRead s s.pc with
  | error g => simp
  | ok b =>
    by_cases hb : b = Config.prefixByte
    · subst hb
      cases h2 : memRead s (add16 s.pc 1) <;> simp [eq_comm]
    · simp [hb, eq_comm]

theorem fetch_error_iff {s : State} {flt : Fault} :
    fetch s = .error flt ↔ memRead s s.pc = .error flt ∨
      (memRead s s.pc = .ok Config.prefixByte ∧ memRead s (add16 s.pc 1) = .error flt) := by
  unfold fetch
  cases h1 : memRead s s.pc with
  | error g => simp
  | ok b =>
    by_cases hb : b = Config.prefixByte
    · subst hb
      cases h2 : memRead s (add16 s.pc 1) <;> simp
    · simp [hb]

/-- Everything a successful Step can do: the byte at PC is an opcode of the table, and the next state is what
Execute of its instruction gives, committed. -/
theorem step_next_cases {s t : State} (h : step s = .next t) :
    ∃ b i ins u w, memRead s s.pc = .ok b ∧ b ≠ Config.prefixByte ∧ decodeOpcode b false = some i ∧
      i.instruction = some ins ∧ execute ins s = .ok (u, w) ∧ t = commit u w := by
  unfold step at h
  cases hf : fetch s with
  | error g => simp [hf, raise] at h
  | ok got =>
    rw [hf] at h
    rcases fetch_ok_iff.1 hf with ⟨b, hb, hne, rfl⟩ | ⟨-, op, -, rfl⟩
    · cases hd : decodeOpcode b false with
      | none => simp [hd, raise] at h
      | some i =>
        obtain ⟨ins, hi, -⟩ := decodeOpcode_some hd
        simp only [hd, exec_eq_finish hi, finish_next_iff] at h
        obtain ⟨u, w, he, rfl⟩ := h
        exact ⟨b, i, ins, u, w, hb, hne, hd, hi, he, rfl⟩
    · simp [decodeOpcode_prefixed, raise] at h

/-- Everything a faulting Step can be: a refused Fetch, an unrecognized opcode, or a fault of Execute. -/
theorem step_fault_cases {s : State} {flt : Fault} (h : step s = .fault flt) :
    fetch s = .error flt ∨
    (∃ got, fetch s = .ok got ∧ decodeOpcode got.op got.isPrefixed = none ∧
      flt = .unrecognizedOpcode got.op got.isPrefixed) ∨
    (∃ b i ins, fetch s = .ok ⟨b, false⟩ ∧ decodeOpcode b false = some i ∧ i.instruction = some ins ∧
      execute ins s = .error flt) := by
  unfold step at h
  cases hf : fetch s with
  | error g => simpa [hf, raise] using h
  | ok got =>
    refine .inr ?_
    simp only [hf] at h
    cases hd : decodeOpcode got.op got.isPrefixed with
    | none =>
      simp only [hd, raise, Host.Outcome.fault.injEq] at h
      exact .inl ⟨got, rfl, hd, h.symm⟩
    | some i =>
      rcases got with ⟨op, p⟩
      cases p
      · obtain ⟨ins, hi, -⟩ := decodeOpcode_some hd
        simp only [hd, exec_eq_finish hi, finish_fault_iff] at h
        exact .inr ⟨op, i, ins, rfl, hd, hi, h⟩
      · simp [decodeOpcode_prefixed] at hd

end Sys2Proof.Machine
end

