-- ==== Sys2Proof/Laws/PerInstr.lean ====
section
/-! SUPPORT. Laws/PerInstr.lean: the family OpcodeLength, one lemma for each constructor of Instr. -/

namespace Sys2Proof.Laws

/-- The first byte of a row's encoding tells the row's length, and the prefix marker has none
(30_encoding.md R73). -/
def OpcodeLength.Statement (i : Instr) : Prop :=
  ∃ b rest, i.opcodeBytes = b :: rest ∧ opcodeLength b = i.instruction.map Instruction.length

theorem OpcodeLength.prefixCB (op : Byte) : OpcodeLength.Statement (.prefixCB op) :=
  ⟨0xCB, [op], rfl, rfl⟩
theorem OpcodeLength.ldBImm : OpcodeLength.Statement .ldBImm := ⟨0x06, [], rfl, rfl⟩
theorem OpcodeLength.ldCImm : OpcodeLength.Statement .ldCImm := ⟨0x0E, [], rfl, rfl⟩
theorem OpcodeLength.ldDImm : OpcodeLength.Statement .ldDImm := ⟨0x16, [], rfl, rfl⟩
theorem OpcodeLength.ldEImm : OpcodeLength.Statement .ldEImm := ⟨0x1E, [], rfl, rfl⟩
theorem OpcodeLength.ldHImm : OpcodeLength.Statement .ldHImm := ⟨0x26, [], rfl, rfl⟩
theorem OpcodeLength.ldLImm : OpcodeLength.Statement .ldLImm := ⟨0x2E, [], rfl, rfl⟩
theorem OpcodeLength.ldMemImm : OpcodeLength.Statement .ldMemImm := ⟨0x36, [], rfl, rfl⟩
theorem OpcodeLength.ldAImm : OpcodeLength.Statement .ldAImm := ⟨0x3E, [], rfl, rfl⟩
theorem OpcodeLength.ldBB : OpcodeLength.Statement .ldBB := ⟨0x40, [], rfl, rfl⟩
theorem OpcodeLength.ldBC : OpcodeLength.Statement .ldBC := ⟨0x41, [], rfl, rfl⟩
theorem OpcodeLength.ldBD : OpcodeLength.Statement .ldBD := ⟨0x42, [], rfl, rfl⟩
theorem OpcodeLength.ldBE : OpcodeLength.Statement .ldBE := ⟨0x43, [], rfl, rfl⟩
theorem OpcodeLength.ldBH : OpcodeLength.Statement .ldBH := ⟨0x44, [], rfl, rfl⟩
theorem OpcodeLength.ldBL : OpcodeLength.Statement .ldBL := ⟨0x45, [], rfl, rfl⟩
theorem OpcodeLength.ldBMem : OpcodeLength.Statement .ldBMem := ⟨0x46, [], rfl, rfl⟩
theorem OpcodeLength.ldBA : OpcodeLength.Statement .ldBA := ⟨0x47, [], rfl, rfl⟩
theorem OpcodeLength.ldCB : OpcodeLength.Statement .ldCB := ⟨0x48, [], rfl, rfl⟩
theorem OpcodeLength.ldCC : OpcodeLength.Statement .ldCC := ⟨0x49, [], rfl, rfl⟩
theorem OpcodeLength.ldCD : OpcodeLength.Statement .ldCD := ⟨0x4A, [], rfl, rfl⟩
theorem OpcodeLength.ldCE : OpcodeLength.Statement .ldCE := ⟨0x4B, [], rfl, rfl⟩
theorem OpcodeLength.ldCH : OpcodeLength.Statement .ldCH := ⟨0x4C, [], rfl, rfl⟩
theorem OpcodeLength.ldCL : OpcodeLength.Statement .ldCL := ⟨0x4D, [], rfl, rfl⟩
theorem OpcodeLength.ldCMem : OpcodeLength.Statement .ldCMem := ⟨0x4E, [], rfl, rfl⟩
theorem OpcodeLength.ldCA : OpcodeLength.Statement .ldCA := ⟨0x4F, [], rfl, rfl⟩
theorem OpcodeLength.ldDB : OpcodeLength.Statement .ldDB := ⟨0x50, [], rfl, rfl⟩
theorem OpcodeLength.ldDC : OpcodeLength.Statement .ldDC := ⟨0x51, [], rfl, rfl⟩
theorem OpcodeLength.ldDD : OpcodeLength.Statement .ldDD := ⟨0x52, [], rfl, rfl⟩
theorem OpcodeLength.ldDE : OpcodeLength.Statement .ldDE := ⟨0x53, [], rfl, rfl⟩
theorem OpcodeLength.ldDH : OpcodeLength.Statement .ldDH := ⟨0x54, [], rfl, rfl⟩
theorem OpcodeLength.ldDL : OpcodeLength.Statement .ldDL := ⟨0x55, [], rfl, rfl⟩
theorem OpcodeLength.ldDMem : OpcodeLength.Statement .ldDMem := ⟨0x56, [], rfl, rfl⟩
theorem OpcodeLength.ldDA : OpcodeLength.Statement .ldDA := ⟨0x57, [], rfl, rfl⟩
theorem OpcodeLength.ldEB : OpcodeLength.Statement .ldEB := ⟨0x58, [], rfl, rfl⟩
theorem OpcodeLength.ldEC : OpcodeLength.Statement .ldEC := ⟨0x59, [], rfl, rfl⟩
theorem OpcodeLength.ldED : OpcodeLength.Statement .ldED := ⟨0x5A, [], rfl, rfl⟩
theorem OpcodeLength.ldEE : OpcodeLength.Statement .ldEE := ⟨0x5B, [], rfl, rfl⟩
theorem OpcodeLength.ldEH : OpcodeLength.Statement .ldEH := ⟨0x5C, [], rfl, rfl⟩
theorem OpcodeLength.ldEL : OpcodeLength.Statement .ldEL := ⟨0x5D, [], rfl, rfl⟩
theorem OpcodeLength.ldEMem : OpcodeLength.Statement .ldEMem := ⟨0x5E, [], rfl, rfl⟩
theorem OpcodeLength.ldEA : OpcodeLength.Statement .ldEA := ⟨0x5F, [], rfl, rfl⟩
theorem OpcodeLength.ldHB : OpcodeLength.Statement .ldHB := ⟨0x60, [], rfl, rfl⟩
theorem OpcodeLength.ldHC : OpcodeLength.Statement .ldHC := ⟨0x61, [], rfl, rfl⟩
theorem OpcodeLength.ldHD : OpcodeLength.Statement .ldHD := ⟨0x62, [], rfl, rfl⟩
theorem OpcodeLength.ldHE : OpcodeLength.Statement .ldHE := ⟨0x63, [], rfl, rfl⟩
theorem OpcodeLength.ldHH : OpcodeLength.Statement .ldHH := ⟨0x64, [], rfl, rfl⟩
theorem OpcodeLength.ldHL : OpcodeLength.Statement .ldHL := ⟨0x65, [], rfl, rfl⟩
theorem OpcodeLength.ldHMem : OpcodeLength.Statement .ldHMem := ⟨0x66, [], rfl, rfl⟩
theorem OpcodeLength.ldHA : OpcodeLength.Statement .ldHA := ⟨0x67, [], rfl, rfl⟩
theorem OpcodeLength.ldLB : OpcodeLength.Statement .ldLB := ⟨0x68, [], rfl, rfl⟩
theorem OpcodeLength.ldLC : OpcodeLength.Statement .ldLC := ⟨0x69, [], rfl, rfl⟩
theorem OpcodeLength.ldLD : OpcodeLength.Statement .ldLD := ⟨0x6A, [], rfl, rfl⟩
theorem OpcodeLength.ldLE : OpcodeLength.Statement .ldLE := ⟨0x6B, [], rfl, rfl⟩
theorem OpcodeLength.ldLH : OpcodeLength.Statement .ldLH := ⟨0x6C, [], rfl, rfl⟩
theorem OpcodeLength.ldLL : OpcodeLength.Statement .ldLL := ⟨0x6D, [], rfl, rfl⟩
theorem OpcodeLength.ldLMem : OpcodeLength.Statement .ldLMem := ⟨0x6E, [], rfl, rfl⟩
theorem OpcodeLength.ldLA : OpcodeLength.Statement .ldLA := ⟨0x6F, [], rfl, rfl⟩
theorem OpcodeLength.ldMemB : OpcodeLength.Statement .ldMemB := ⟨0x70, [], rfl, rfl⟩
theorem OpcodeLength.ldMemC : OpcodeLength.Statement .ldMemC := ⟨0x71, [], rfl, rfl⟩
theorem OpcodeLength.ldMemD : OpcodeLength.Statement .ldMemD := ⟨0x72, [], rfl, rfl⟩
theorem OpcodeLength.ldMemE : OpcodeLength.Statement .ldMemE := ⟨0x73, [], rfl, rfl⟩
theorem OpcodeLength.ldMemH : OpcodeLength.Statement .ldMemH := ⟨0x74, [], rfl, rfl⟩
theorem OpcodeLength.ldMemL : OpcodeLength.Statement .ldMemL := ⟨0x75, [], rfl, rfl⟩
theorem OpcodeLength.ldMemA : OpcodeLength.Statement .ldMemA := ⟨0x77, [], rfl, rfl⟩
theorem OpcodeLength.ldAB : OpcodeLength.Statement .ldAB := ⟨0x78, [], rfl, rfl⟩
theorem OpcodeLength.ldAC : OpcodeLength.Statement .ldAC := ⟨0x79, [], rfl, rfl⟩
theorem OpcodeLength.ldAD : OpcodeLength.Statement .ldAD := ⟨0x7A, [], rfl, rfl⟩
theorem OpcodeLength.ldAE : OpcodeLength.Statement .ldAE := ⟨0x7B, [], rfl, rfl⟩
theorem OpcodeLength.ldAH : OpcodeLength.Statement .ldAH := ⟨0x7C, [], rfl, rfl⟩
theorem OpcodeLength.ldAL : OpcodeLength.Statement .ldAL := ⟨0x7D, [], rfl, rfl⟩
theorem OpcodeLength.ldAMem : OpcodeLength.Statement .ldAMem := ⟨0x7E, [], rfl, rfl⟩
theorem OpcodeLength.ldAA : OpcodeLength.Statement .ldAA := ⟨0x7F, [], rfl, rfl⟩
theorem OpcodeLength.addAB : OpcodeLength.Statement .addAB := ⟨0x80, [], rfl, rfl⟩
theorem OpcodeLength.addAC : OpcodeLength.Statement .addAC := ⟨0x81, [], rfl, rfl⟩
theorem OpcodeLength.addAD : OpcodeLength.Statement .addAD := ⟨0x82, [], rfl, rfl⟩
theorem OpcodeLength.addAE : OpcodeLength.Statement .addAE := ⟨0x83, [], rfl, rfl⟩
theorem OpcodeLength.addAH : OpcodeLength.Statement .addAH := ⟨0x84, [], rfl, rfl⟩
theorem OpcodeLength.addAL : OpcodeLength.Statement .addAL := ⟨0x85, [], rfl, rfl⟩
theorem OpcodeLength.addAA : OpcodeLength.Statement .addAA := ⟨0x87, [], rfl, rfl⟩
theorem OpcodeLength.jpNZ : OpcodeLength.Statement .jpNZ := ⟨0xC2, [], rfl, rfl⟩
theorem OpcodeLength.jp : OpcodeLength.Statement .jp := ⟨0xC3, [], rfl, rfl⟩
theorem OpcodeLength.jpZ : OpcodeLength.Statement .jpZ := ⟨0xCA, [], rfl, rfl⟩
theorem OpcodeLength.jpNC : OpcodeLength.Statement .jpNC := ⟨0xD2, [], rfl, rfl⟩
theorem OpcodeLength.jpC : OpcodeLength.Statement .jpC := ⟨0xDA, [], rfl, rfl⟩

end Sys2Proof.Laws
end

