-- ==== Sys2Proof/Laws/Session.lean ====
section
/-! SUPPORT. Laws/Session.lean: what Load does, byte by byte and in a session. -/

namespace Sys2Proof.Machine

@[simp] theorem load_nil (s : State) : load [] s = .ok s := rfl

/-- Load of a first byte at an address other than 0xFFFF writes it and goes on. -/
theorem load_cons {item : Word × Byte} (h : item.1 ≠ 65535#16) (items : List (Word × Byte)) (s : State) :
    load (item :: items) s = load items (s.setMem (Memory.write s.mem item.1.toNat item.2)) := by
  have hw : memWrite s item.1 item.2 = .ok (s.setMem (Memory.write s.mem item.1.toNat item.2)) :=
    memWrite_ok_iff.2 ⟨(backed_iff item.1).2 h, rfl⟩
  simp [load, hw]

/-- A session refuses a Load by name exactly when it is no longer loading (60_exceptions.md R176). -/
theorem sessionLoad_error_iff {items : List (Word × Byte)} {x : Session} {e : HostRefusal} :
    sessionLoad items x = .error e ↔ x.phase ≠ .loading ∧ e = .loadAfterStep := by
  unfold sessionLoad
  cases hp : x.phase with
  | loading => cases load items x.cpu <;> simp
  | running => simp [eq_comm]
  | stopped flt => simp [eq_comm]

end Sys2Proof.Machine
end

