-- ==== Sys2Proof/Tests/Slice0.lean ====
section
/-! SUPPORT. Tests/Slice0.lean: tests of the model on values from the spec, and for each obligation with hypotheses a
theorem `witness_<its name>` that meets them. "S<n>" and "V<n>" are the vectors of 95_test_vectors.md. -/

namespace Sys2Proof.Tests

open Sys2Proof Sys2Proof.Machine Sys2Proof.Claims

/-! ### Helpers -/

/-- The next state of an outcome. -/
def nextOf : Host.Outcome State Fault Refusal → Option State
  | .next s => some s
  | .fault _ => none
  | .refused _ => none

/-- The fault of an outcome. -/
def faultOf : Host.Outcome State Fault Refusal → Option Fault
  | .next _ => none
  | .fault flt => some flt
  | .refused _ => none

/-- The state after Construct with PC at an address, and bytes there. -/
def startAt (pc : Word) (bytes : List Byte) : State := placeBytes { State.reset with pc := pc } pc bytes

/-- One byte stored. -/
def poke (s : State) (addr : Word) (v : Byte) : State := placeBytes s addr [v]

/-- The verdict on each opcode byte, three zero bytes after it. -/
def decodeEach (ops : List Byte) : List Verdict := ops.map fun op => decode [op, 0, 0, 0]

/-! ### WellFormed -/

/-- LD (HL),(HL) "is not an instruction" (42_ld.md R126). -/
theorem test_wellformed_refuses_memory_to_memory : Instruction.wellFormed (.ld .memHL .memHL) = false := by decide

/-- The neighbours of the refused term are instructions. -/
theorem test_wellformed_accepts_the_neighbours :
    Instruction.wellFormed (.ld .memHL .imm8) = true ∧ Instruction.wellFormed (.ld (.reg .h) .memHL) = true ∧
      Instruction.wellFormed (.ld .memHL (.reg .l)) = true := by
  decide

/-- "no valid instruction starts with 0xCB" (30_encoding.md R60). -/
theorem test_wellformed_refuses_the_prefix_marker : Instr.wellFormed (.prefixCB 0x7C) = false := by decide

/-! ### Decode -/

/-- LD B,d8 to LD A,d8, opcode bytes from spec/opcode_table.json's encodings. -/
theorem test_decode_load_immediate :
    decodeEach
      [0b00000110, 0b00001110, 0b00010110, 0b00011110, 0b00100110, 0b00101110, 0b00110110, 0b00111110] =
      [.row .ldBImm, .row .ldCImm, .row .ldDImm, .row .ldEImm, .row .ldHImm, .row .ldLImm, .row .ldMemImm,
       .row .ldAImm] := by
  decide

/-- LD B,B to LD B,A, opcode bytes from spec/opcode_table.json's encodings. -/
theorem test_decode_load_b :
    decodeEach
      [0b01000000, 0b01000001, 0b01000010, 0b01000011, 0b01000100, 0b01000101, 0b01000110, 0b01000111] =
      [.row .ldBB, .row .ldBC, .row .ldBD, .row .ldBE, .row .ldBH, .row .ldBL, .row .ldBMem, .row .ldBA] := by
  decide

/-- LD C,B to LD C,A, opcode bytes from spec/opcode_table.json's encodings. -/
theorem test_decode_load_c :
    decodeEach
      [0b01001000, 0b01001001, 0b01001010, 0b01001011, 0b01001100, 0b01001101, 0b01001110, 0b01001111] =
      [.row .ldCB, .row .ldCC, .row .ldCD, .row .ldCE, .row .ldCH, .row .ldCL, .row .ldCMem, .row .ldCA] := by
  decide

/-- LD D,B to LD D,A, opcode bytes from spec/opcode_table.json's encodings. -/
theorem test_decode_load_d :
    decodeEach
      [0b01010000, 0b01010001, 0b01010010, 0b01010011, 0b01010100, 0b01010101, 0b01010110, 0b01010111] =
      [.row .ldDB, .row .ldDC, .row .ldDD, .row .ldDE, .row .ldDH, .row .ldDL, .row .ldDMem, .row .ldDA] := by
  decide

/-- LD E,B to LD E,A, opcode bytes from spec/opcode_table.json's encodings. -/
theorem test_decode_load_e :
    decodeEach
      [0b01011000, 0b01011001, 0b01011010, 0b01011011, 0b01011100, 0b01011101, 0b01011110, 0b01011111] =
      [.row .ldEB, .row .ldEC, .row .ldED, .row .ldEE, .row .ldEH, .row .ldEL, .row .ldEMem, .row .ldEA] := by
  decide

/-- LD H,B to LD H,A, opcode bytes from spec/opcode_table.json's encodings. -/
theorem test_decode_load_h :
    decodeEach
      [0b01100000, 0b01100001, 0b01100010, 0b01100011, 0b01100100, 0b01100101, 0b01100110, 0b01100111] =
      [.row .ldHB, .row .ldHC, .row .ldHD, .row .ldHE, .row .ldHH, .row .ldHL, .row .ldHMem, .row .ldHA] := by
  decide

/-- LD L,B to LD L,A, opcode bytes from spec/opcode_table.json's encodings. -/
theorem test_decode_load_l :
    decodeEach
      [0b01101000, 0b01101001, 0b01101010, 0b01101011, 0b01101100, 0b01101101, 0b01101110, 0b01101111] =
      [.row .ldLB, .row .ldLC, .row .ldLD, .row .ldLE, .row .ldLH, .row .ldLL, .row .ldLMem, .row .ldLA] := by
  decide

/-- LD (HL),B to LD (HL),A, opcode bytes from spec/opcode_table.json's encodings. -/
theorem test_decode_load_memory :
    decodeEach
      [0b01110000, 0b01110001, 0b01110010, 0b01110011, 0b01110100, 0b01110101, 0b01110111] =
      [.row .ldMemB, .row .ldMemC, .row .ldMemD, .row .ldMemE, .row .ldMemH, .row .ldMemL, .row .ldMemA] := by
  decide

/-- LD A,B to LD A,A, opcode bytes from spec/opcode_table.json's encodings. -/
theorem test_decode_load_a :
    decodeEach
      [0b01111000, 0b01111001, 0b01111010, 0b01111011, 0b01111100, 0b01111101, 0b01111110, 0b01111111] =
      [.row .ldAB, .row .ldAC, .row .ldAD, .row .ldAE, .row .ldAH, .row .ldAL, .row .ldAMem, .row .ldAA] := by
  decide

/-- ADD A,B to ADD A,A, opcode bytes from spec/opcode_table.json's encodings. -/
theorem test_decode_add :
    decodeEach
      [0b10000000, 0b10000001, 0b10000010, 0b10000011, 0b10000100, 0b10000101, 0b10000111] =
      [.row .addAB, .row .addAC, .row .addAD, .row .addAE, .row .addAH, .row .addAL, .row .addAA] := by
  decide

/-- JP NZ,a16 to JP C,a16, opcode bytes from spec/opcode_table.json's encodings. -/
theorem test_decode_jump :
    decodeEach
      [0b11000010, 0b11000011, 0b11001010, 0b11010010, 0b11011010] =
      [.row .jpNZ, .row .jp, .row .jpZ, .row .jpNC, .row .jpC] := by
  decide

/-- 0xCB and the byte after it, from the encoding 11001011 oooooooo. -/
theorem test_decode_prefix_marker :
    [decode [0b11001011, 0b01111100], decode [0b11001011, 0b11001011]] =
      [.row (.prefixCB 0x7C), .row (.prefixCB 0xCB)] := by
  decide

/-- V4: bytes without an entry. -/
theorem test_decode_unrecognized :
    decodeEach [0x00, 0x01, 0x10, 0x27, 0x76, 0x86, 0x88, 0xC6, 0xC9, 0xE9, 0xFF] =
      [.unrecognized 0x00, .unrecognized 0x01, .unrecognized 0x10, .unrecognized 0x27, .unrecognized 0x76,
       .unrecognized 0x86, .unrecognized 0x88, .unrecognized 0xC6, .unrecognized 0xC9, .unrecognized 0xE9,
       .unrecognized 0xFF] := by
  decide

/-- V4: "83 of the 256 unprefixed values decode", none of the prefixed ones. -/
theorem test_decode_counts :
    ((List.range 256).filter fun k => (decodeOpcode (BitVec.ofNat 8 k) false).isSome).length = 83 ∧
      ((List.range 256).filter fun k => (decodeOpcode (BitVec.ofNat 8 k) true).isSome).length = 0 := by
  decide +kernel

theorem test_decode_too_few_bytes : [decode [], decode [0xCB]] = [.truncated, .truncated] := by decide

/-- The first byte is the least significant one of a table word; missing operand bytes are zero. -/
theorem test_decode_table_word :
    [decodeTableWord 16 0x7CCB, decodeTableWord 24 0x1234CA, decodeTableWord 16 0x0006, decodeTableWord 8 0x06,
     decodeTableWord 8 0x80, decodeTableWord 8 0x76] =
      [some (.prefixCB 0x7C), some .jpZ, some .ldBImm, some .ldBImm, some .addAB, none] := by
  decide

/-- 30_encoding.md R74: "`C3 34 12` for `JP 0x1234`"; V2: 3E 7B is LD A,0x7B. -/
theorem test_encode_operands :
    encode .jp 0 0x1234 = [0xC3, 0x34, 0x12] ∧ encode .ldAImm 0x7B 0 = [0x3E, 0x7B] ∧
      encode .addAB 0x7B 0x1234 = [0x80] := by
  decide

/-! ### Registers, flags, memory -/

/-- S1 and its other direction: 0xA7 gives 0xA0, 0x0F gives 0x00, 0xFF gives 0xF0. -/
theorem test_flags_byte :
    Flags.toByte ⟨true, false, true, true⟩ = 0xB0 ∧ Flags.toByte ⟨false, true, false, false⟩ = 0x40 ∧
      [0xA7, 0x0F, 0xFF].map (fun v => (Flags.fromByte v).toByte) = [0xA0, 0x00, 0xF0] := by
  decide

/-- S2: pair writes and reads. -/
theorem test_pair_write :
    ((State.reset.setPair .bc 0xBEEF).b, (State.reset.setPair .bc 0xBEEF).c) = (0xBE, 0xEF) ∧
      State.getPair { State.reset with h := 0xC0, l := 0x10 } .hl = 0xC010 := by
  decide

/-- Memory as a list stays canonical: rising addresses, no byte 0x00. -/
theorem test_memory_canonical :
    (poke (poke (poke State.reset 0x20 1) 0x10 2) 0x20 0).mem = [(0x10, 2)] ∧
      (poke (poke State.reset 0x20 1) 0x10 2).mem = [(0x10, 2), (0x20, 1)] := by
  decide

/-- 20_memory.md R40: the top backed address, and the address that is not. -/
theorem test_memory_top :
    memRead (poke State.reset 0xFFFE 0x11) 0xFFFE = .ok 0x11 ∧
      memRead State.reset 0xFFFF = .error (.addressFault 0xFFFF) := by
  decide

/-- S8: after Construct. -/
theorem test_reset_mem : memRead State.reset 0x0000 = .ok 0x00 ∧ State.reset.f.toByte = 0x00 := by decide

/-! ### ADD -/

/-- V1: result and F byte of the adder. -/
theorem test_adder :
    [(0x01, 0x02), (0xFF, 0x01), (0x0F, 0x01), (0xF0, 0x10), (0x0F, 0x00), (0xFF, 0xFF), (0x7F, 0x01), (0x3A, 0xC6)].map
        (fun p : Byte × Byte => (add8Result p.1 p.2, (add8Flags p.1 p.2).toByte)) =
      [(0x03, 0x00), (0x00, 0xB0), (0x10, 0x20), (0x00, 0x90), (0x0F, 0x00), (0xFE, 0x30), (0x80, 0x20),
       (0x00, 0xB0)] := by
  decide

/-- V1, opcode 80, with F = F0 before (S3). -/
theorem test_add_b :
    nextOf (step { startAt 0x0100 [0x80] with a := 0x01, b := 0x02, f := Flags.fromByte 0xF0 }) =
      some { startAt 0x0100 [0x80] with a := 0x03, b := 0x02, pc := 0x0101 } := by
  decide

/-- V1, opcode 81. -/
theorem test_add_c :
    (nextOf (step { startAt 0x0010 [0x81] with a := 0xFF, c := 0x01 })).map (fun t => (t.a, t.f.toByte, t.pc)) =
      some (0x00, 0xB0, 0x0011) := by
  decide

/-- V1, opcode 82. -/
theorem test_add_d :
    (nextOf (step { startAt 0x0010 [0x82] with a := 0x0F, d := 0x01 })).map (fun t => (t.a, t.f.toByte, t.pc)) =
      some (0x10, 0x20, 0x0011) := by
  decide

/-- V1, opcode 83. -/
theorem test_add_e :
    (nextOf (step { startAt 0x0010 [0x83] with a := 0xF0, e := 0x10 })).map (fun t => (t.a, t.f.toByte, t.pc)) =
      some (0x00, 0x90, 0x0011) := by
  decide

/-- V1, opcode 84: the operand register is not written. -/
theorem test_add_h :
    (nextOf (step { startAt 0x0010 [0x84] with a := 0x3A, h := 0xC6 })).map (fun t => (t.a, t.h, t.f.toByte)) =
      some (0x00, 0xC6, 0xB0) := by
  decide

/-- V1, opcode 85, F = 70 before. -/
theorem test_add_l :
    (nextOf (step { startAt 0x0010 [0x85] with f := Flags.fromByte 0x70 })).map (fun t => (t.a, t.f.toByte)) =
      some (0x00, 0x80) := by
  decide

/-- V1, opcode 87: A = 88 gives 10 and F = 30. -/
theorem test_add_a :
    (nextOf (step { startAt 0x0010 [0x87] with a := 0x88 })).map (fun t => (t.a, t.f.toByte, t.pc)) =
      some (0x10, 0x30, 0x0011) := by
  decide

/-! ### LD -/

/-- V2: LD A,B leaves F. -/
theorem test_ld_a_b :
    nextOf (step { startAt 0x0100 [0x78] with b := 0x5A, f := Flags.fromByte 0xF0 }) =
      some { startAt 0x0100 [0x78] with a := 0x5A, b := 0x5A, f := Flags.fromByte 0xF0, pc := 0x0101 } := by
  decide

/-- V2: LD A,A changes only PC. -/
theorem test_ld_a_a :
    nextOf (step { startAt 0x0100 [0x7F] with a := 0x5A }) =
      some { startAt 0x0100 [0x7F] with a := 0x5A, pc := 0x0101 } := by
  decide

/-- V2: LD H,L and LD L,H. -/
theorem test_ld_h_l_and_l_h :
    [[0x65], [0x6C]].map (fun bytes => (nextOf (step { startAt 0x0100 bytes with h := 0xC0, l := 0x10 })).map
        (fun t => (t.h, t.l))) =
      [some (0x10, 0x10), some (0xC0, 0xC0)] := by
  decide

/-- V2: LD A,(HL), LD H,(HL) and LD L,(HL), each with the address formed from the old H and L. -/
theorem test_ld_from_memory :
    [(0x7E, 0x99), (0x66, 0x20), (0x6E, 0x20)].map (fun p : Byte × Byte =>
        (nextOf (step (poke { startAt 0x0100 [p.1] with h := 0xC0, l := 0x10 } 0xC010 p.2))).map
          (fun t => (t.a, t.h, t.l))) =
      [some (0x99, 0xC0, 0x10), some (0x00, 0x20, 0x10), some (0x00, 0xC0, 0x20)] := by
  decide

/-- V2: LD (HL),H and LD (HL),L. -/
theorem test_ld_to_memory_h_and_l :
    [0x74, 0x75].map (fun op : Byte =>
        (nextOf (step { startAt 0x0100 [op] with h := 0xC0, l := 0x10 })).map (fun t => byteAt t 0xC010)) =
      [some 0xC0, some 0x10] := by
  decide

/-- V2: LD (HL),A at the highest backed address. -/
theorem test_ld_to_memory_top :
    (nextOf (step { startAt 0x0100 [0x77] with h := 0xFF, l := 0xFE, a := 0x11 })).map
        (fun t => (byteAt t 0xFFFE, t.pc)) =
      some (0x11, 0x0101) := by
  decide

/-- V2: LD (HL),A overwrites its own opcode with 00, which the memory then does not list. -/
theorem test_ld_overwrites_itself :
    nextOf (step { startAt 0x0100 [0x77] with h := 0x01 }) =
      some { State.reset with h := 0x01, pc := 0x0101 } := by
  decide

/-- V2: 0xCB and 0x00 as data. -/
theorem test_ld_immediate_data :
    (nextOf (step (startAt 0x0100 [0x06, 0xCB]))).map (fun t => (t.b, t.pc)) = some (0xCB, 0x0102) ∧
      (nextOf (step { startAt 0x0100 [0x26, 0x00] with h := 0xC0 })).map (fun t => (t.h, t.pc)) =
        some (0x00, 0x0102) := by
  decide

/-- V2: LD (HL),0xAB. -/
theorem test_ld_memory_immediate :
    (nextOf (step { startAt 0x0100 [0x36, 0xAB] with h := 0xC0, l := 0x01 })).map
        (fun t => (byteAt t 0xC001, t.pc)) =
      some (0xAB, 0x0102) := by
  decide

/-- V2: HL = 0xFFFF faults for 7E, 77 and 36 55. -/
theorem test_ld_memory_fault :
    [[0x7E], [0x77], [0x36, 0x55]].map (fun bytes =>
        faultOf (step { startAt 0x0100 bytes with h := 0xFF, l := 0xFF, a := 0x11 })) =
      [some (.addressFault 0xFFFF), some (.addressFault 0xFFFF), some (.addressFault 0xFFFF)] := by
  decide

/-- V2, the top of memory: LD B,C at 0xFFFE leaves PC = 0xFFFF, LD A,0x77 at 0xFFFD too, LD A,d8 at 0xFFFE faults. -/
theorem test_ld_top :
    (nextOf (step { startAt 0xFFFE [0x41] with c := 0x09 })).map (fun t => (t.b, t.pc)) = some (0x09, 0xFFFF) ∧
      (nextOf (step (startAt 0xFFFD [0x3E, 0x77]))).map (fun t => (t.a, t.pc)) = some (0x77, 0xFFFF) ∧
      faultOf (step (startAt 0xFFFE [0x3E])) = some (.addressFault 0xFFFF) := by
  decide

/-! ### JP -/

/-- V3, one row of the truth table: PC after the five jumps C3, C2, CA, D2, DA under a flags byte. -/
def jumpRow (fb : Byte) : List (Option Word) :=
  [0xC3, 0xC2, 0xCA, 0xD2, 0xDA].map fun op =>
    (nextOf (step { startAt 0x0100 [op, 0x34, 0x12] with f := Flags.fromByte fb })).map State.pc

/-- V3: F = 00 and F = 60. -/
theorem test_jp_no_flag :
    [jumpRow 0x00, jumpRow 0x60] =
      List.replicate 2 [some 0x1234, some 0x1234, some 0x0103, some 0x1234, some 0x0103] := by
  decide

/-- V3: F = 10 and F = 80. -/
theorem test_jp_one_flag :
    [jumpRow 0x10, jumpRow 0x80] =
      [[some 0x1234, some 0x1234, some 0x0103, some 0x0103, some 0x1234],
       [some 0x1234, some 0x0103, some 0x1234, some 0x1234, some 0x0103]] := by
  decide

/-- V3: F = 90 and F = F0. -/
theorem test_jp_both_flags :
    [jumpRow 0x90, jumpRow 0xF0] =
      List.replicate 2 [some 0x1234, some 0x0103, some 0x1234, some 0x0103, some 0x1234] := by
  decide

/-- V3: the last place a taken jump fits, and the two faults above it. -/
theorem test_jp_top :
    (nextOf (step (startAt 0xFFFC [0xC3, 0x34, 0x12]))).map State.pc = some 0x1234 ∧
      faultOf (step (startAt 0xFFFD [0xC3, 0x34])) = some (.addressFault 0xFFFF) ∧
      faultOf (step (startAt 0xFFFE [0xC3])) = some (.addressFault 0xFFFF) := by
  decide

/-- V3: an untaken JP Z wraps PC and reads no operand. -/
theorem test_jp_untaken_wraps :
    (nextOf (step (startAt 0xFFFD [0xCA, 0x34]))).map State.pc = some 0x0000 ∧
      (nextOf (step (startAt 0xFFFE [0xCA]))).map State.pc = some 0x0001 := by
  decide

/-! ### Faults and texts -/

/-- V5: faults of Fetch and Decode, in their order. -/
theorem test_faults :
    [step (startAt 0x0002 [0xCB, 0x7C]), step (startAt 0x0100 [0xCB, 0xCB]), step (startAt 0xFFFD [0xCB, 0x40]),
     step (startAt 0xFFFE [0xCB]), step (startAt 0xFFFF []), step (startAt 0xFFFE [0x00]),
     step { startAt 0x0100 [0x86] with h := 0xFF, l := 0xFF }].map faultOf =
      [some (.unrecognizedOpcode 0x7C true), some (.unrecognizedOpcode 0xCB true),
       some (.unrecognizedOpcode 0x40 true), some (.addressFault 0xFFFF), some (.addressFault 0xFFFF),
       some (.unrecognizedOpcode 0x00 false), some (.unrecognizedOpcode 0x86 false)] := by
  decide

/-- V5: the text of 0xCB 0xCB and of 0x0A. -/
theorem test_diagnostic_text :
    diagnosticChars (.unrecognizedOpcode 0xCB true) = some ['0', 'x', 'C', 'B', 'C', 'B'] ∧
      diagnosticChars (.unrecognizedOpcode 0x0A false) = some ['0', 'x', '0', 'A'] := by
  decide

/-- 30_encoding.md R74: `JP NZ, 0x1234` and `LD (HL), 0xAB`. -/
theorem test_assembly_text :
    assemblyChars (.jp .notZero) 0 0x1234 =
        ['J', 'P', ' ', 'N', 'Z', ',', ' ', '0', 'x', '1', '2', '3', '4'] ∧
      assemblyChars (.ld .memHL .imm8) 0xAB 0 =
        ['L', 'D', ' ', '(', 'H', 'L', ')', ',', ' ', '0', 'x', 'A', 'B'] ∧
      assemblyChars (.add .b) 0 0 =
        ['A', 'D', 'D', ' ', 'A', ',', ' ', 'B'] := by
  decide

/-- S7: Inspect. -/
theorem test_inspect :
    [Query.reg .a, .reg .a, .mem 0xC000, .flag .zero, .pc].map (fun q =>
        inspect q (poke { State.reset with a := 0x3A, f := Flags.fromByte 0xB0, pc := 0x0009 } 0xC000 0x42)) =
      [.ok (.byte 0x3A), .ok (.byte 0x3A), .ok (.byte 0x42), .ok (.bool true), .ok (.word 0x0009)] := by
  decide

/-! ### Witnesses: states that meet the hypotheses of the obligations -/

theorem witness_ConstructZeroesEverything :
    (0x0000 : Word).toNat ≤ 0xFFFE ∧ (0xFFFE : Word).toNat ≤ 0xFFFE := by
  decide

/-- Both clauses at their boundary addresses, of the read and of the write. -/
theorem witness_MemReadAnswersTheByteOrFaults :
    memRead State.reset 0x0000 = .ok 0 ∧ (0xFFFE : Word).toNat ≤ 0xFFFE ∧ memRead State.reset 0xFFFE = .ok 0 ∧
      memRead State.reset 0xFFFF = .error (.addressFault 0xFFFF) := by
  decide

theorem witness_MemWriteChangesOneByteOnly :
    memWrite State.reset 0x0000 7 = .ok (poke State.reset 0x0000 7) ∧
      memWrite State.reset 0xFFFE 7 = .ok (poke State.reset 0xFFFE 7) ∧ byteAt (poke State.reset 0xFFFE 7) 0xFFFE = 7 ∧
      memWrite State.reset 0xFFFF 7 = .error (.addressFault 0xFFFF) := by
  decide

theorem witness_MemWriteRepeatedChangesNothing :
    memWrite State.reset 0xFFFE 7 = .ok (poke State.reset 0xFFFE 7) := by
  decide

theorem witness_CanonicalMemoriesAreEqualWhenTheyReadAlike :
    Memory.wf (poke State.reset 0x10 2).mem ∧
      ∀ addr, addr < 65535 → Memory.read (poke State.reset 0x10 2).mem addr = Memory.read [(0x10, 2)] addr :=
  ⟨by decide, fun _ _ => rfl⟩

theorem witness_StepKeepsMemoryCanonical :
    Memory.wf (startAt 0 [0x77]).mem ∧
      nextOf (step { startAt 0 [0x77] with h := 0xC0, a := 5 }) =
        some (poke { startAt 0 [0x77] with h := 0xC0, a := 5, pc := 1 } 0xC000 5) := by
  decide

theorem witness_LoadStoresTheGivenBytes :
    (∀ item ∈ [((0x0000 : Word), (1 : Byte)), (0xFFFE, 2), (0x0000, 3)], item.1 ≠ 0xFFFF) ∧ Memory.wf State.reset.mem ∧
      load [(0x0000, 1), (0xFFFE, 2), (0x0000, 3)] State.reset = .ok (poke (poke State.reset 0 3) 0xFFFE 2) :=
  ⟨by simp, by decide, by decide⟩

theorem witness_DecodedBytesAreTheRowsOpcode :
    decode [0x80, 0x55] = .row .addAB ∧ decode [0xCB, 0x00] = .row (.prefixCB 0x00) := by
  decide

/-- One opcode of each range's end has no entry, and each opcode beside a range has one. -/
theorem witness_UnrecognizedOpcodesAreTheListed :
    ([0x05, 0x07, 0x3F, 0x76, 0x86, 0x88, 0xC1, 0xC4, 0xDB, 0xFF].map fun op => decodeOpcode op false) =
        List.replicate 10 none ∧
      ([0x06, 0x3E, 0x40, 0x75, 0x77, 0x85, 0x87, 0xC2, 0xC3, 0xDA].map fun op =>
        (decodeOpcode op false).isSome) = List.replicate 10 true := by
  decide

theorem witness_OpcodeFieldsSelectTheInstruction :
    Decodes (0b01#2 ++ Reg.code .a ++ Reg.code .b) (.ld (.reg .a) (.reg .b)) :=
  ⟨.ldAB, rfl, rfl⟩

theorem witness_EveryInstructionButOneHasOneOpcode :
    (Instruction.ld .memHL .imm8) ≠ .ld .memHL .memHL ∧ Decodes 0x36 (.ld .memHL .imm8) :=
  ⟨by decide, .ldMemImm, rfl, rfl⟩

/-- Each shape of the first clause, and the second clause. -/
theorem witness_FirstByteTellsTheLength :
    [(decodeOpcode 0x80 false, opcodeLength 0x80), (decodeOpcode 0x40 false, opcodeLength 0x40),
     (decodeOpcode 0x7E false, opcodeLength 0x7E), (decodeOpcode 0x36 false, opcodeLength 0x36),
     (decodeOpcode 0xDA false, opcodeLength 0xDA), (decodeOpcode 0x76 false, opcodeLength 0x76)] =
      [(some .addAB, some 1), (some .ldBB, some 1), (some .ldAMem, some 1), (some .ldMemImm, some 2),
       (some .jpC, some 3), (none, none)] := by
  decide

/-- Both clauses at the highest place their bytes fit. -/
theorem witness_EncodedOperandsAreReadBack :
    holdsAt (startAt 0xFFFD [0x3E, 0x77]) 0xFFFD (encode .ldAImm 0x77 0) = true ∧
      readImm8 (startAt 0xFFFD [0x3E, 0x77]) = .ok 0x77 ∧
      holdsAt (startAt 0xFFFC [0xC3, 0x34, 0x12]) 0xFFFC (encode .jp 0 0x1234) = true ∧
      readImm16 (startAt 0xFFFC [0xC3, 0x34, 0x12]) = .ok 0x1234 := by
  decide

theorem witness_StepRunsTheDecodedRow :
    holdsAt (startAt 0xFFFE [0x41]) 0xFFFE [0x41] = true ∧ decode [0x41] = .row .ldBC ∧
      holdsAt (startAt 0xFFFD [0xCB, 0x40]) 0xFFFD [0xCB, 0x40] = true ∧ decode [0xCB, 0x40] = .row (.prefixCB 0x40) := by
  decide

/-- Each shape of instruction executes, a jump both ways. -/
theorem witness_NextPcOfEveryInstruction :
    [execute (.add .b) (startAt 0xFFFE []), execute (.ld .memHL (.reg .b)) (startAt 0xFFFE []),
     execute (.ld (.reg .b) .memHL) (startAt 0xFFFE []), execute (.ld (.reg .b) .imm8) (startAt 0xFFFD []),
     execute (.jp .always) (startAt 0xFFFC [0xC3, 0x34, 0x12]), execute (.jp .zero) (startAt 0xFFFD [])].map
        (fun x => x.toOption.map Prod.snd) =
      [some 0xFFFF, some 0xFFFF, some 0xFFFF, some 0xFFFF, some 0x1234, some 0x0000] := by
  decide

/-- One Step on the straight path, one that leaves it. -/
theorem witness_OnlyATakenJumpLeavesTheStraightPath :
    (nextOf (step (startAt 0xFFFD [0xCA, 0x34]))).map State.pc = some (0xFFFD + 3) ∧
      (nextOf (step (startAt 0xFFFC [0xC3, 0x34, 0x12]))).map State.pc = some 0x1234 := by
  decide

theorem witness_LoadRegisterFromRegister : Instr.ldBC.instruction = some (.ld (.reg .b) (.reg .c)) := rfl

/-- Both clauses at their boundary values of HL. -/
theorem witness_LoadRegisterFromMemory :
    Instr.ldHMem.instruction = some (.ld (.reg .h) .memHL) ∧ wordOf 0xFF 0xFE ≠ 0xFFFF ∧ wordOf 0x00 0x00 ≠ 0xFFFF ∧
      wordOf 0xFF 0xFF = 0xFFFF := by
  decide

theorem witness_LoadMemoryFromRegister :
    Instr.ldMemA.instruction = some (.ld .memHL (.reg .a)) ∧ wordOf 0xFF 0xFE ≠ 0xFFFF ∧ wordOf 0x00 0x00 ≠ 0xFFFF ∧
      wordOf 0xFF 0xFF = 0xFFFF := by
  decide

/-- Both clauses: PC beside 0xFFFE, and at it. -/
theorem witness_LoadRegisterFromImmediate :
    Instr.ldAImm.instruction = some (.ld (.reg .a) .imm8) ∧ (startAt 0xFFFD []).pc ≠ 0xFFFE ∧
      (startAt 0xFFFF []).pc ≠ 0xFFFE ∧ (startAt 0xFFFE []).pc = 0xFFFE := by
  decide

/-- Both clauses, the second by PC alone and by HL alone. -/
theorem witness_LoadMemoryFromImmediate :
    nextOf (exec .ldMemImm { startAt 0xFFFD [0x36, 0x55] with h := 0xFF, l := 0xFE }) =
        some { startAt 0xFFFD [0x36, 0x55] with h := 0xFF, l := 0xFE, pc := 0xFFFF } ∧
      faultOf (exec .ldMemImm (startAt 0xFFFE [0x36])) = some (.addressFault 0xFFFF) ∧
      faultOf (exec .ldMemImm { startAt 0 [0x36] with h := 0xFF, l := 0xFF }) = some (.addressFault 0xFFFF) := by
  decide

theorem witness_MemoryToMemoryLoadHasNoNetEffect :
    wordOf 0xFF 0xFE ≠ 0xFFFF ∧ Memory.wf State.reset.mem ∧ wordOf 0xFF 0xFF = 0xFFFF ∧
      nextOf (finish (execute (.ld .memHL .memHL) { State.reset with h := 0xFF, l := 0xFE })) =
        some { State.reset with h := 0xFF, l := 0xFE, pc := 1 } := by
  decide

/-- The first clause at the highest PC it covers below the top and at 0xFFFF, each flag both ways. -/
theorem witness_JumpGoesToTargetOrFallsThrough :
    (0xFFFC : Word) ≠ 0xFFFD ∧ (0xFFFF : Word) ≠ 0xFFFE ∧ State.reset.f.z = false ∧ State.reset.f.c = false ∧
      (Flags.fromByte 0x90).z = true ∧ (Flags.fromByte 0x90).c = true := by
  decide

theorem witness_TakenJumpFaultsAtTheTop :
    [startAt 0xFFFD [], startAt 0xFFFE []].map (fun s => faultOf (exec .jpNZ s)) =
        List.replicate 2 (some (.addressFault 0xFFFF)) ∧
      [startAt 0xFFFD [], startAt 0xFFFE []].map (fun s => faultOf (exec .jpC { s with f := Flags.fromByte 0x90 })) =
        List.replicate 2 (some (.addressFault 0xFFFF)) := by
  decide

/-- Both cases of the equivalence. -/
theorem witness_UnrecognizedOpcodeRecordsTheByte :
    memRead (startAt 0xFFFE [0xFF]) 0xFFFE = .ok 0xFF ∧ (0xFF : Byte) ≠ 0xCB ∧ decodeOpcode 0xFF false = none ∧
      memRead (startAt 0xFFFD [0xCB, 0x40]) 0xFFFD = .ok 0xCB ∧ memRead (startAt 0xFFFD [0xCB, 0x40]) 0xFFFE = .ok 0x40 := by
  decide

/-- A state for each case of the list. -/
theorem witness_AddressFaultExactlyInTheListedStates :
    [startAt 0xFFFF [], startAt 0xFFFE [0xCB], startAt 0xFFFE [0x36], startAt 0xFFFE [0xC3], startAt 0xFFFD [0xC3],
     { startAt 0 [0x7E] with h := 0xFF, l := 0xFF }, { startAt 0 [0x70] with h := 0xFF, l := 0xFF }].map
        (fun s => faultOf (step s)) =
      List.replicate 7 (some (.addressFault 0xFFFF)) := by
  decide

/-- Each clause. -/
theorem witness_FaultOrderAtTheTopOfMemory :
    (startAt 0xFFFF []).pc = 0xFFFF ∧ byteAt (startAt 0xFFFE [0xCB]) 0xFFFE = 0xCB ∧
      byteAt (startAt 0xFFFE [0x00]) 0xFFFE = 0x00 := by
  decide

/-- Both sides of the equivalence occur, each obligation of the program at its boundary. -/
theorem witness_StepSucceedsExactlyWhenTheProgramKeepsR196 :
    [startAt 0xFFFE [0x41], startAt 0xFFFD [0x3E], startAt 0xFFFC [0xC3], startAt 0xFFFE [0xCA]].map
        Safety.keepsRunning = List.replicate 4 true ∧
      [startAt 0xFFFF [], startAt 0 [], startAt 0 [0xCB], startAt 0xFFFE [0x3E], startAt 0xFFFD [0xC3],
       { startAt 0 [0x70] with h := 0xFF, l := 0xFF }].map Safety.keepsRunning = List.replicate 6 false := by
  decide

theorem witness_OnlyAdditionWritesFlags :
    (nextOf (step { startAt 0 [0x78] with f := Flags.fromByte 0xF0 })).map (fun t => t.f.toByte) = some 0xF0 ∧
      fetchedInstruction (startAt 0 [0x78]) = some (.ld (.reg .a) (.reg .b)) := by
  decide

/-- A Step that changes a byte, at the highest address. -/
theorem witness_MemoryChangesOnlyByAStoreAtHL :
    (nextOf (step { startAt 0 [0x77] with h := 0xFF, l := 0xFE, a := 9 })).map (fun t => memRead t 0xFFFE) =
        some (.ok 9) ∧
      memRead { startAt 0 [0x77] with h := 0xFF, l := 0xFE, a := 9 } 0xFFFE = .ok 0 := by
  decide

/-- A Step that changes a register by a load, and one that changes A by an addition. -/
theorem witness_OnlyTheNamedRegisterChanges :
    (nextOf (step { startAt 0 [0x50] with b := 9 })).map (fun t => t.getReg .d) = some 9 ∧
      (nextOf (step { startAt 0 [0x80] with b := 9 })).map (fun t => t.getReg .a) = some 9 := by
  decide

/-- LD (HL),B stores 0x78 just after itself, where the next Step fetches. -/
theorem witness_StoreIsSeenByTheNextFetch :
    fetchedInstruction { startAt 0 [0x70] with l := 1, b := 0x78 } = some (.ld .memHL (.reg .b)) ∧
      readSource (.reg .b) { startAt 0 [0x70] with l := 1, b := 0x78 } = .ok 0x78 ∧
      (nextOf (step { startAt 0 [0x70] with l := 1, b := 0x78 })).map (fun t => (t.pc, byteAt t 1)) =
        some (wordOf 0 1, 0x78) := by
  decide

theorem witness_JumpToSelfIdlesForever :
    holdsAt (startAt 0xFFFC [0xC3, 0xFC, 0xFF]) 0xFFFC [0xC3, loByte 0xFFFC, hiByte 0xFFFC] = true := by decide

theorem witness_AtMostThreeAccessesTheWriteLast :
    stepAccesses (startAt 0x0100 [0x36, 0xAB]) = [.read 0x0100, .read 0x0101] ++ .write 0x0000 :: [] := by decide

/-- Accesses to 0xFFFF of each kind: a first fetch, a second fetch, an operand and a store. -/
theorem witness_AddressFaultIffAnAccessIsUnbacked :
    [startAt 0xFFFF [], startAt 0xFFFE [0xCB], startAt 0xFFFE [0x3E], startAt 0xFFFD [0xC3],
     { startAt 0 [0x70] with h := 0xFF, l := 0xFF }].map
        (fun s => (stepAccesses s).any fun x => accessAddr x = 0xFFFF) = List.replicate 5 true := by
  decide

/-- LD (HL),B with one byte of memory replaced that it does not read. -/
theorem witness_StepDependsOnlyOnTheBytesItReads :
    stepAccesses { startAt 0 [0x70] with h := 0xC0, b := 5 } = [.read 0, .write 0xC000] ∧
      Memory.read (poke (startAt 0 [0x70]) 0xC001 9).mem 0 = byteAt (startAt 0 [0x70]) 0 ∧
      (poke (startAt 0 [0x70]) 0xC001 9).mem ≠ (startAt 0 [0x70]).mem := by
  decide

theorem witness_FaultingStepKeepsTheStateAndEndsTheRun :
    sessionStep construct =
      .ok ({ cpu := State.reset, phase := .stopped (.unrecognizedOpcode 0 false) }, some (.unrecognizedOpcode 0 false)) := by
  decide

/-- Each clause: a second Load, of the last backed byte, in a session that holds a loaded byte already; a Step that
succeeds; a Step that faults; and a session whose Step has faulted. -/
theorem witness_LoadOnlyBeforeTheFirstStep :
    (sessionLoad [(0x0000, 0x80)] construct = .ok (.ok { cpu := startAt 0 [0x80], phase := .loading }) ∧
      sessionLoad [(0xFFFE, 1)] { cpu := startAt 0 [0x80], phase := .loading } =
        .ok (.ok { cpu := poke (startAt 0 [0x80]) 0xFFFE 1, phase := .loading }) ∧
      ∀ item ∈ [((0xFFFE : Word), (1 : Byte))], item.1 ≠ 0xFFFF) ∧
    sessionStep { cpu := startAt 0 [0x80], phase := .loading } =
      .ok ({ cpu := { startAt 0 [0x80] with f := ⟨true, false, false, false⟩, pc := 1 }, phase := .running }, none) ∧
    (∀ flt, construct.phase ≠ .stopped flt) ∧ step construct.cpu = .fault (.unrecognizedOpcode 0 false) ∧
    (Session.mk State.reset (.stopped (.unrecognizedOpcode 0 false))).phase = .stopped (.unrecognizedOpcode 0 false) :=
  ⟨⟨by decide, by decide, by simp⟩, by decide, fun _ h => Phase.noConfusion h, rfl, rfl⟩

theorem witness_InspectAnswersTheState :
    inspect (.mem 0xFFFE) State.reset = .ok (.byte 0) ∧
      inspect (.mem 0xFFFF) State.reset = .error (.addressFault 0xFFFF) := by
  decide

/-- The second of two instances steps. -/
theorem witness_InstancesShareNothing :
    stepInstance 1 [State.reset, startAt 0 [0x78]] =
      some (.next [State.reset, { startAt 0 [0x78] with pc := 1 }]) :=
  rfl

/-- The highest PC the statement covers. -/
theorem witness_PlacedWordIsTheNextInstruction :
    (startAt 0xFFFC []).pc.toNat ≤ 0xFFFC ∧ decodeTableWord 24 0x1234C3 = some .jp ∧
      (nextOf (step ((startAt 0xFFFC []).withFetchWord 24 0x1234C3))).map State.pc = some 0x1234 := by
  decide

end Sys2Proof.Tests
end

section
/-! SUPPORT. The statements of 10_state.md. The facts they rest on come first, each said once: the
halves of a word, the byte view of F, what Inspect reads, and what Execute and a Step may write. -/

namespace Sys2Proof.Proofs

open Sys2Proof.Machine Sys2Proof.Claims

/-! ### The halves of a word -/

/-- The composition of 10_state.md R14. -/
theorem wordOf_eq_or (hi lo : Byte) : wordOf hi lo = (zext 16 hi <<< 8 ||| zext 16 lo) := by
  rw [wordOf, BitVec.append_def, BitVec.shiftLeftZeroExtend_eq]
  rfl

theorem hiByte_eq_shift (v : Word) : hiByte v = zext 8 (v >>> 8) := by
  ext i
  simp [hiByte]

theorem loByte_eq_mask (v : Word) : loByte v = zext 8 (v &&& 0xFF) := by
  ext i hi
  interval_cases i <;> simp [loByte]

/-! ### The register pairs -/

theorem pairHi_ne_pairLo (p : Pair) : pairHi p ≠ pairLo p := by
  cases p <;> decide

@[simp] theorem setPair_f (s : State) (p : Pair) (v : Word) : (s.setPair p v).f = s.f := by
  simp [State.setPair]

@[simp] theorem setPair_pc (s : State) (p : Pair) (v : Word) : (s.setPair p v).pc = s.pc := by
  simp [State.setPair]

@[simp] theorem setPair_mem (s : State) (p : Pair) (v : Word) : (s.setPair p v).mem = s.mem := by
  simp [State.setPair]

@[simp] theorem setPair_getReg_pairHi (s : State) (p : Pair) (v : Word) :
    (s.setPair p v).getReg (pairHi p) = hiByte v := by
  simp [State.setPair, (pairHi_ne_pairLo p).symm]

@[simp] theorem setPair_getReg_pairLo (s : State) (p : Pair) (v : Word) :
    (s.setPair p v).getReg (pairLo p) = loByte v := by
  simp [State.setPair]

theorem setPair_getReg_other (s : State) {p : Pair} (v : Word) {r : Reg} (hhi : r ≠ pairHi p) (hlo : r ≠ pairLo p) :
    (s.setPair p v).getReg r = s.getReg r := by
  simp [State.setPair, hhi.symm, hlo.symm]

@[simp] theorem setPair_getPair (s : State) (p : Pair) (v : Word) : (s.setPair p v).getPair p = v := by
  simp [State.getPair]

/-! ### The byte view of F -/

@[simp] theorem flagBit_getElem (x : Bool) {i : Nat} (h : i < 8) : (flagBit x)[i] = (decide (i = 0) && x) := by
  cases x <;> simp [flagBit]

theorem fromByte_toByte (f : Flags) : Flags.fromByte f.toByte = f := by
  simp [Flags.toByte, Flags.fromByte]

theorem toByte_fromByte (b : Byte) : (Flags.fromByte b).toByte = b &&& 0xF0 := by
  ext i hi
  interval_cases i <;> simp [Flags.toByte, Flags.fromByte]

/-- The bytes the mask of 10_state.md R20 keeps are the multiples of 0x10. -/
theorem and_highNibble_eq_self_iff (b : Byte) : b &&& 0xF0 = b ↔ b.toNat % 16 = 0 := by
  have hmask : b &&& (0xF0 : Byte) = (b >>> 4) <<< 4 := by
    ext i hi
    interval_cases i <;> simp
  have hb := b.isLt
  rw [hmask, ← BitVec.toNat_inj, BitVec.toNat_shiftLeft, BitVec.toNat_ushiftRight, Nat.shiftLeft_eq,
    Nat.shiftRight_eq_div_pow]
  omega

/-- The image of the byte view (10_state.md R20): exactly the bytes that both round trips fix. -/
theorem exists_toByte_eq_iff (b : Byte) : (∃ f : Flags, f.toByte = b) ↔ b.toNat % 16 = 0 := by
  rw [← and_highNibble_eq_self_iff, ← toByte_fromByte]
  constructor
  · rintro ⟨f, rfl⟩
    rw [fromByte_toByte]
  · exact fun h => ⟨_, h⟩

/-! ### Inspect -/

/-- Inspect of an address is a read of it (10_state.md R30). -/
theorem inspect_mem (addr : Word) (s : State) : inspect (.mem addr) s = (memRead s addr).map .byte := by
  simp only [inspect]
  cases memRead s addr <;> rfl

/-! ### What Execute and a Step write -/

theorem executeAdd_ok_iff {r : Reg} {s t : State} {w : Word} :
    executeAdd r s = .ok (t, w) ↔
      t = (s.setReg .a (add8Result s.a (s.getReg r))).setFlags (add8Flags s.a (s.getReg r)) ∧ w = add16 s.pc 1 := by
  simp [executeAdd, eq_comm]

theorem writeTarget_f {tgt : LoadTarget} {v : Byte} {s t : State} (h : writeTarget tgt v s = .ok t) : t.f = s.f := by
  rcases writeTarget_ok_iff.1 h with ⟨r, -, rfl⟩ | ⟨-, -, rfl⟩ <;> simp

/-- A target write changes no general register but the one it names (40_step_cycle.md R92). -/
theorem writeTarget_getReg {tgt : LoadTarget} {v : Byte} {s t : State} {r : Reg} (h : writeTarget tgt v s = .ok t)
    (hr : tgt ≠ .reg r) : t.getReg r = s.getReg r := by
  rcases writeTarget_ok_iff.1 h with ⟨q, rfl, rfl⟩ | ⟨-, -, rfl⟩
  · have hqr : q ≠ r := fun e => hr (congrArg _ e)
    simp [hqr]
  · simp

/-- Execute of anything but an ADD keeps the flags. -/
theorem execute_f {ins : Instruction} {s t : State} {w : Word} (h : execute ins s = .ok (t, w))
    (hadd : ∀ r, ins ≠ .add r) : t.f = s.f := by
  cases ins with
  | add r => exact absurd rfl (hadd r)
  | ld tgt src =>
    obtain ⟨v, -, hw, -⟩ := executeLd_ok_iff.1 h
    exact writeTarget_f hw
  | jp cnd =>
    obtain ⟨rfl, -⟩ := executeJp_ok_iff.1 h
    rfl

/-- A register Execute changes is the target of a load, or A in an ADD. -/
theorem execute_getReg_ne {ins : Instruction} {s t : State} {w : Word} {r : Reg} (h : execute ins s = .ok (t, w))
    (hr : t.getReg r ≠ s.getReg r) : (∃ src, ins = .ld (.reg r) src) ∨ (r = .a ∧ ∃ q, ins = .add q) := by
  cases ins with
  | add q =>
    obtain ⟨rfl, -⟩ := executeAdd_ok_iff.1 h
    have ha : r = .a := by
      by_contra hne
      simp [Ne.symm hne] at hr
    exact .inr ⟨ha, q, rfl⟩
  | ld tgt src =>
    obtain ⟨v, -, hw, -⟩ := executeLd_ok_iff.1 h
    have htgt : tgt = .reg r := by_contra fun hne => hr (writeTarget_getReg hw hne)
    exact .inl ⟨src, by rw [htgt]⟩
  | jp cnd =>
    obtain ⟨rfl, -⟩ := executeJp_ok_iff.1 h
    exact absurd rfl hr

theorem fetchedInstruction_eq_some {s : State} {b : Byte} {i : Instr} {ins : Instruction}
    (hb : memRead s s.pc = .ok b) (hd : decodeOpcode b false = some i) (hi : i.instruction = some ins) :
    fetchedInstruction s = some ins := by
  simp [fetchedInstruction, hb, hd, hi]

/-- A successful Step is Execute and Commit of the fetched instruction. -/
theorem step_next_fetched {s t : State} (h : step s = .next t) :
    ∃ ins u w, fetchedInstruction s = some ins ∧ execute ins s = .ok (u, w) ∧ t = commit u w := by
  obtain ⟨b, i, ins, u, w, hb, -, hd, hi, he, ht⟩ := step_next_cases h
  exact ⟨ins, u, w, fetchedInstruction_eq_some hb hd hi, he, ht⟩

/-! ### The statements -/

/-- Settles O3: the two register writes of a pair write, which name different registers. -/
theorem pairWriteSplitsTheWord : Obligations.PairWriteSplitsTheWord := by
  intro s p v
  refine ⟨?_, ?_, setPair_getPair s p v, fun r => setPair_getReg_other s v, setPair_f s p v, setPair_pc s p v,
    setPair_mem s p v⟩
  · rw [setPair_getReg_pairHi, hiByte_eq_shift]
  · rw [setPair_getReg_pairLo, loByte_eq_mask]

/-- Settles O46, from what Execute of each family writes. -/
theorem onlyAdditionWritesFlags : Obligations.OnlyAdditionWritesFlags := by
  intro s t hstep hadd
  obtain ⟨ins, u, w, hf, he, rfl⟩ := step_next_fetched hstep
  rw [commit_f]
  exact execute_f he fun r hr => hadd r (hr ▸ hf)

/-- Settles O48, from what Execute of each family writes. -/
theorem onlyTheNamedRegisterChanges : Obligations.OnlyTheNamedRegisterChanges := by
  intro s t r hstep hr
  obtain ⟨ins, u, w, hf, he, rfl⟩ := step_next_fetched hstep
  rw [commit_getReg] at hr
  rw [hf]
  rcases execute_getReg_ne he hr with ⟨src, rfl⟩ | ⟨ha, q, rfl⟩
  · exact .inl ⟨src, rfl⟩
  · exact .inr ⟨ha, q, rfl⟩

/-- Settles O1, by the laws of a register write. -/
theorem registersAreIndependentStorage : Obligations.RegistersAreIndependentStorage := by
  intro s r r' v
  refine ⟨?_, State.setReg_f s r v, State.setReg_pc s r v, State.setReg_mem s r v⟩
  simp only [State.setReg_getReg, eq_comm]

/-- Settles O2: each pair is the word of its two registers. -/
theorem pairReadsHighThenLow : Obligations.PairReadsHighThenLow := fun s =>
  ⟨wordOf_eq_or s.h s.l, wordOf_eq_or s.b s.c, wordOf_eq_or s.d s.e⟩

/-- Settles O4: the single bits are the fields of `from_byte(to_byte(F))`, the rest are the two round trips and the
image they determine. -/
theorem flagsByteConversions : Obligations.FlagsByteConversions := by
  refine ⟨fun f => ?_, fun b => rfl, fromByte_toByte, toByte_fromByte, exists_toByte_eq_iff⟩
  have hf := fromByte_toByte f
  exact ⟨congrArg Flags.z hf, congrArg Flags.n hf, congrArg Flags.h hf, congrArg Flags.c hf,
    (exists_toByte_eq_iff _).1 ⟨f, rfl⟩⟩

/-- Settles O56: the views are the state's own fields, and a memory query is a read. -/
theorem inspectAnswersTheState : Obligations.InspectAnswersTheState := by
  intro s r addr
  refine ⟨rfl, rfl, rfl, rfl, rfl, rfl, rfl, fun hne => ?_, ?_⟩
  · rw [inspect_mem, memRead_of_ne_top hne]
    rfl
  · rintro rfl
    rw [inspect_mem, memRead_error_iff.2 ⟨backed_top, rfl⟩]
    rfl

end Sys2Proof.Proofs
end

section
/-! SUPPORT. The statements of 20_memory.md. The facts they rest on come first, each said once: the list of
cells, MemRead and MemWrite, Load, a Step by its Fetch and its instruction, the accesses of each and which of them
fault, a Step with another memory, and what the host does in a session and to one CORE of several. -/

namespace Sys2Proof.Proofs

open Sys2Proof.Machine Sys2Proof.Claims

/-! ### The list of cells: what a canonical memory lists, and writing one address twice -/

theorem Memory.wf_tail {cell : Host.Cell} {m : Memory} (h : Memory.wf (cell :: m)) : Memory.wf m :=
  ⟨h.1.of_cons, fun c hc => h.2 c (List.mem_cons_of_mem _ hc)⟩

/-- A canonical memory lists exactly the nonzero bytes it reads, each at its address. -/
theorem Memory.mem_iff_read {m : Memory} (h : Memory.wf m) (cell : Host.Cell) :
    cell ∈ m ↔ cell.2 ≠ Config.resetByte ∧ Memory.read m cell.1 = cell.2 := by
  induction m with
  | nil => simp [Memory.read, eq_comm]
  | cons c m ih =>
    by_cases hk : c.1 = cell.1
    · have hnot : cell ∉ m := fun hm => ((List.pairwise_cons.1 h.1).1 cell hm).ne hk
      have hc : c.2 ≠ Config.resetByte := (h.2 c List.mem_cons_self).2
      simp only [List.mem_cons, hnot, or_false, Memory.read, hk, if_true]
      constructor
      · rintro rfl
        exact ⟨hc, rfl⟩
      · exact fun hv => Prod.ext hk.symm hv.2.symm
    · have hne : cell ≠ c := fun e => hk (e ▸ rfl)
      simp [Memory.read, hk, hne, ih (Memory.wf_tail h)]

theorem Memory.erase_erase (m : Memory) (addr : Nat) :
    Memory.erase (Memory.erase m addr) addr = Memory.erase m addr := by
  simp [Memory.erase]

theorem Memory.erase_insert (m : Memory) (addr : Nat) (v : Byte) :
    Memory.erase (Memory.insert m addr v) addr = Memory.erase m addr := by
  induction m with
  | nil => simp [Memory.insert, Memory.erase]
  | cons cell m ih =>
    by_cases hlt : cell.1 < addr
    · simpa [Memory.insert, Memory.erase, hlt, hlt.ne] using ih
    · simp [Memory.insert, Memory.erase, hlt]

theorem Memory.erase_write (m : Memory) (addr : Nat) (v : Byte) :
    Memory.erase (Memory.write m addr v) addr = Memory.erase m addr := by
  unfold Memory.write
  split_ifs
  · exact Memory.erase_erase m addr
  · rw [Memory.erase_insert, Memory.erase_erase]

/-- The last byte written at an address stands, in any list, canonical or not. -/
theorem Memory.write_write (m : Memory) (addr : Nat) (v v' : Byte) :
    Memory.write (Memory.write m addr v) addr v' = Memory.write m addr v' := by
  rw [Memory.write, Memory.erase_write, Memory.write]

/-! ### MemRead and MemWrite -/

theorem ne_top_of_toNat_le {addr : Word} (h : addr.toNat ≤ 0xFFFE) : addr ≠ 0xFFFF := by
  rintro rfl
  exact absurd h (by decide)

@[simp] theorem memRead_commit (s : State) (w addr : Word) : memRead (commit s w) addr = memRead s addr := rfl

theorem memRead_congr {s t : State} (h : t.mem = s.mem) (addr : Word) : memRead t addr = memRead s addr := by
  rw [memRead, memRead, h]

theorem memRead_setMem_congr {s : State} {m : Memory} {addr : Word}
    (h : Memory.read m addr.toNat = byteAt s addr) : memRead (s.setMem m) addr = memRead s addr := by
  rw [memRead, memRead, State.setMem_mem, h, byteAt]

theorem memRead_write_same (s : State) {addr : Word} (h : backed addr = true) (m : Memory) (v : Byte) :
    memRead (s.setMem (Memory.write m addr.toNat v)) addr = .ok v :=
  memRead_ok_iff.2 ⟨h, by simp⟩

theorem memRead_write_other (s : State) {addr k : Word} (h : k ≠ addr) (v : Byte) :
    memRead (s.setMem (Memory.write s.mem addr.toNat v)) k = memRead s k :=
  memRead_setMem_congr (by simp [byteAt, BitVec.toNat_inj, h])

/-! ### Load -/

/-- The memory after the given bytes are written in order. -/
def Memory.writeAll (items : List (Word × Byte)) (m : Memory) : Memory :=
  items.foldl (fun m item => Memory.write m item.1.toNat item.2) m

@[simp] theorem Memory.writeAll_snoc (items : List (Word × Byte)) (item : Word × Byte) (m : Memory) :
    Memory.writeAll (items ++ [item]) m = Memory.write (Memory.writeAll items m) item.1.toNat item.2 := by
  simp [Memory.writeAll]

/-- Load of backed addresses writes the bytes and touches nothing else (20_memory.md R51). -/
theorem load_eq_writeAll {items : List (Word × Byte)} (h : ∀ item ∈ items, item.1 ≠ 0xFFFF) (s : State) :
    load items s = .ok (s.setMem (Memory.writeAll items s.mem)) := by
  induction items generalizing s with
  | nil => rfl
  | cons item items ih =>
    obtain ⟨hitem, hitems⟩ := List.forall_mem_cons.1 h
    rw [load_cons hitem, ih hitems]
    rfl

theorem Memory.writeAll_wf {items : List (Word × Byte)} (h : ∀ item ∈ items, item.1 ≠ 0xFFFF) {m : Memory}
    (hm : Memory.wf m) : Memory.wf (Memory.writeAll items m) := by
  induction items generalizing m with
  | nil => exact hm
  | cons item items ih =>
    obtain ⟨hitem, hitems⟩ := List.forall_mem_cons.1 h
    exact ih hitems (Memory.wf_write hm (backed_lt ((backed_iff _).2 hitem)) item.2)

/-- The last byte given for an address stands, by induction on the items from the last one back. -/
theorem Memory.read_writeAll (items : List (Word × Byte)) (m : Memory) (addr : Word) :
    Memory.read (Memory.writeAll items m) addr.toNat =
      ((items.reverse.find? fun item => item.1 == addr).map Prod.snd).getD (Memory.read m addr.toNat) := by
  induction items using List.reverseRecOn with
  | nil => rfl
  | append_singleton items item ih =>
    by_cases h : item.1 = addr
    · simp [h]
    · simp [h, Ne.symm h, BitVec.toNat_inj, ih]

/-! ### A Step by its Fetch and its instruction -/

/-- Where a byte at PC is no instruction's opcode, it has no entry. -/
theorem decodeOpcode_of_not_fetched {s : State} {b : Byte} (h : fetchedInstruction s = none)
    (hb : memRead s s.pc = .ok b) : decodeOpcode b false = none := by
  refine Option.eq_none_iff_forall_ne_some.2 fun i hi => ?_
  obtain ⟨ins, hins, -⟩ := decodeOpcode_some hi
  simpa [h] using fetchedInstruction_eq_some hb hi hins

/-- An instruction is fetched exactly where Fetch gives its opcode byte, unprefixed. -/
theorem fetchedInstruction_some_iff {s : State} {ins : Instruction} :
    fetchedInstruction s = some ins ↔
      ∃ b i, fetch s = .ok ⟨b, false⟩ ∧ decodeOpcode b false = some i ∧ i.instruction = some ins := by
  constructor
  · intro h
    unfold fetchedInstruction at h
    cases hb : memRead s s.pc with
    | error flt => simp [hb] at h
    | ok b =>
      obtain ⟨i, hd, hi⟩ := Option.bind_eq_some_iff.1 (by simpa [hb] using h)
      have hne : b ≠ Config.prefixByte := by
        rintro rfl
        cases hd
      exact ⟨b, i, fetch_ok_iff.2 (.inl ⟨b, hb, hne, rfl⟩), hd, hi⟩
  · rintro ⟨b, i, hf, hd, hi⟩
    rcases fetch_ok_iff.1 hf with ⟨c, hb, -, hc⟩ | ⟨-, op, -, hc⟩ <;> cases hc
    exact fetchedInstruction_eq_some hb hd hi

/-- A Step with an instruction is its Execute and Commit. -/
theorem step_of_fetched {s : State} {ins : Instruction} (h : fetchedInstruction s = some ins) :
    step s = finish (execute ins s) := by
  obtain ⟨b, i, hf, hd, hi⟩ := fetchedInstruction_some_iff.1 h
  simp only [step, hf, hd, exec_eq_finish hi]

/-- A Step whose Fetch is refused ends with that fault. -/
theorem step_of_fetch_error {s : State} {flt : Fault} (h : fetch s = .error flt) : step s = .fault flt := by
  simp only [step, h, raise]

/-- A Step whose Fetch gives no instruction ends with the fault of the byte it looked up. -/
theorem step_of_not_fetched {s : State} {got : Fetched} (h : fetchedInstruction s = none) (hf : fetch s = .ok got) :
    step s = .fault (.unrecognizedOpcode got.op got.isPrefixed) := by
  have hd : decodeOpcode got.op got.isPrefixed = none := by
    rcases fetch_ok_iff.1 hf with ⟨b, hb, -, rfl⟩ | ⟨-, op, -, rfl⟩
    · exact decodeOpcode_of_not_fetched h hb
    · exact decodeOpcode_prefixed op
  simp only [step, hf, hd, raise]

/-- Each Step ends in a next state or in a fault; none is refused (60_exceptions.md R160). -/
theorem step_next_or_fault (s : State) : (∃ t, step s = .next t) ∨ ∃ flt, step s = .fault flt := by
  cases hi : fetchedInstruction s with
  | some ins =>
    rw [step_of_fetched hi]
    cases execute ins s with
    | ok done => exact .inl ⟨_, rfl⟩
    | error flt => exact .inr ⟨_, rfl⟩
  | none =>
    cases hf : fetch s with
    | error flt => exact .inr ⟨_, step_of_fetch_error hf⟩
    | ok got => exact .inr ⟨_, step_of_not_fetched hi hf⟩

/-! ### The accesses of a Step (20_memory.md R47): those of Fetch, then those of Execute -/

/-- The accesses of Fetch: the byte at PC, and the one after it where that byte is 0xCB. -/
def fetchAccesses (s : State) : List Access :=
  if memRead s s.pc = .ok Config.prefixByte then [.read s.pc, .read (add16 s.pc 1)] else [.read s.pc]

theorem stepAccesses_of_fetched {s : State} {ins : Instruction} (h : fetchedInstruction s = some ins) :
    stepAccesses s = fetchAccesses s ++ executeAccesses ins s := by
  obtain ⟨b, i, hf, hd, hi⟩ := fetchedInstruction_some_iff.1 h
  rcases fetch_ok_iff.1 hf with ⟨c, hb, hne, hc⟩ | ⟨-, op, -, hc⟩ <;> cases hc
  obtain ⟨hback, hread⟩ := memRead_ok_iff.1 hb
  simp [stepAccesses, fetchAccesses, rowAccesses, hback, hread, hb, hne, hd, hi]

theorem stepAccesses_of_not_fetched {s : State} (h : fetchedInstruction s = none) :
    stepAccesses s = fetchAccesses s := by
  unfold stepAccesses fetchAccesses
  cases hb : memRead s s.pc with
  | error flt => simp [(memRead_error_iff.1 hb).1]
  | ok b =>
    obtain ⟨hback, hread⟩ := memRead_ok_iff.1 hb
    simp [hback, hread, decodeOpcode_of_not_fetched h hb]

theorem read_pc_mem_fetchAccesses (s : State) : .read s.pc ∈ fetchAccesses s := by
  unfold fetchAccesses
  split_ifs <;> simp

theorem write_not_mem_fetchAccesses (s : State) (addr : Word) : .write addr ∉ fetchAccesses s := by
  unfold fetchAccesses
  split_ifs <;> simp

theorem write_not_mem_sourceAccesses (src : LoadSource) (s : State) (addr : Word) :
    .write addr ∉ sourceAccesses src s := by
  cases src <;> simp [sourceAccesses]

/-- Only a store writes, and it writes at HL. -/
theorem write_mem_executeAccesses_iff {ins : Instruction} {s : State} {addr : Word} :
    .write addr ∈ executeAccesses ins s ↔ addr = s.hl ∧ ∃ src, ins = .ld .memHL src := by
  cases ins with
  | add r => simp [executeAccesses]
  | ld tgt src => cases tgt <;> simp [executeAccesses, targetAccesses, write_not_mem_sourceAccesses]
  | jp cnd =>
    simp only [executeAccesses]
    split_ifs <;> simp

@[simp] theorem sourceAccesses_setMem (src : LoadSource) (s : State) (m : Memory) :
    sourceAccesses src (s.setMem m) = sourceAccesses src s := by
  cases src <;> rfl

@[simp] theorem targetAccesses_setMem (tgt : LoadTarget) (s : State) (m : Memory) :
    targetAccesses tgt (s.setMem m) = targetAccesses tgt s := by
  cases tgt <;> rfl

@[simp] theorem executeAccesses_setMem (ins : Instruction) (s : State) (m : Memory) :
    executeAccesses ins (s.setMem m) = executeAccesses ins s := by
  cases ins with
  | add r => rfl
  | ld tgt src => simp [executeAccesses]
  | jp cnd => rfl

/-- Execute leaves every byte it does not write. -/
theorem execute_memRead_of_not_written {ins : Instruction} {s t : State} {w addr : Word}
    (h : execute ins s = .ok (t, w)) (ha : .write addr ∉ executeAccesses ins s) : memRead t addr = memRead s addr := by
  cases ins with
  | add r =>
    obtain ⟨rfl, -⟩ := executeAdd_ok_iff.1 h
    exact memRead_congr (by simp) addr
  | ld tgt src =>
    obtain ⟨v, -, hw, -⟩ := executeLd_ok_iff.1 h
    rcases writeTarget_ok_iff.1 hw with ⟨r, -, rfl⟩ | ⟨rfl, -, rfl⟩
    · exact memRead_congr (by simp) addr
    · exact memRead_write_other s (fun e => ha (write_mem_executeAccesses_iff.2 ⟨e, src, rfl⟩)) v
  | jp cnd =>
    obtain ⟨rfl, -⟩ := executeJp_ok_iff.1 h
    rfl

/-! ### Which access faults (20_memory.md R43) -/

/-- One of the accesses goes to 0xFFFF. -/
def Unbacked (accesses : List Access) : Prop := ∃ x ∈ accesses, accessAddr x = 0xFFFF

@[simp] theorem unbacked_nil : ¬ Unbacked [] := by simp [Unbacked]

@[simp] theorem unbacked_cons (x : Access) (xs : List Access) :
    Unbacked (x :: xs) ↔ accessAddr x = 0xFFFF ∨ Unbacked xs := by
  simp [Unbacked]

@[simp] theorem unbacked_append (xs ys : List Access) : Unbacked (xs ++ ys) ↔ Unbacked xs ∨ Unbacked ys := by
  simp [Unbacked, or_and_right, exists_or]

theorem memRead_error_iff_top {s : State} {addr : Word} {flt : Fault} :
    memRead s addr = .error flt ↔ addr = 0xFFFF ∧ flt = .addressFault 0xFFFF := by
  rw [memRead_error_iff, backed_false_iff]
  exact and_congr_right fun h => by rw [h]

theorem memWrite_error_iff_top {s : State} {addr : Word} {v : Byte} {flt : Fault} :
    memWrite s addr v = .error flt ↔ addr = 0xFFFF ∧ flt = .addressFault 0xFFFF := by
  rw [memWrite_error_iff, backed_false_iff]
  exact and_congr_right fun h => by rw [h]

theorem fetch_error_iff_unbacked {s : State} {flt : Fault} :
    fetch s = .error flt ↔ Unbacked (fetchAccesses s) ∧ flt = .addressFault 0xFFFF := by
  rw [fetch_error_iff, memRead_error_iff_top, memRead_error_iff_top, fetchAccesses]
  split_ifs with h <;> simp [h, accessAddr, or_and_right]

theorem not_unbacked_of_fetch_ok {s : State} {got : Fetched} (h : fetch s = .ok got) :
    ¬ Unbacked (fetchAccesses s) := fun hu => by
  simp [fetch_error_iff_unbacked.2 ⟨hu, rfl⟩] at h

theorem readSource_error_iff_unbacked {src : LoadSource} {s : State} {flt : Fault} :
    readSource src s = .error flt ↔ Unbacked (sourceAccesses src s) ∧ flt = .addressFault 0xFFFF := by
  cases src <;> simp [readSource, readImm8, sourceAccesses, memRead_error_iff_top, accessAddr]

theorem writeTarget_error_iff_unbacked {tgt : LoadTarget} {v : Byte} {s : State} {flt : Fault} :
    writeTarget tgt v s = .error flt ↔ Unbacked (targetAccesses tgt s) ∧ flt = .addressFault 0xFFFF := by
  cases tgt <;> simp [writeTarget, targetAccesses, memWrite_error_iff_top, accessAddr]

theorem readImm16_error_iff_unbacked {s : State} {flt : Fault} :
    readImm16 s = .error flt ↔
      Unbacked [.read (add16 s.pc 1), .read (add16 s.pc 2)] ∧ flt = .addressFault 0xFFFF := by
  rw [readImm16_error_iff, memRead_error_iff_top, memRead_error_iff_top]
  by_cases h : s.pc + 1#16 = 65535#16
  · simp [h, accessAddr]
  · simp [h, accessAddr, memRead_of_ne_top h]

/-- Execute faults exactly when one of its accesses is unbacked. -/
theorem execute_error_iff_unbacked {ins : Instruction} {s : State} {flt : Fault} :
    execute ins s = .error flt ↔ Unbacked (executeAccesses ins s) ∧ flt = .addressFault 0xFFFF := by
  cases ins with
  | add r => simp [execute, executeAdd, executeAccesses]
  | ld tgt src =>
    rw [execute, executeLd_error_iff, readSource_error_iff_unbacked, executeAccesses, unbacked_append, or_and_right]
    cases h : readSource src s with
    | error g =>
      obtain ⟨hu, rfl⟩ := readSource_error_iff_unbacked.1 h
      simp [hu]
    | ok v => simp [writeTarget_error_iff_unbacked]
  | jp cnd =>
    rw [execute, executeJp_error_iff, readImm16_error_iff_unbacked, executeAccesses]
    split_ifs with hc <;> simp [hc]

/-! ### A Step with another memory (20_memory.md R50) -/

/-- The memory `m` holds what the state's own memory holds at every address that is read. -/
def SameReads (s : State) (m : Memory) (accesses : List Access) : Prop :=
  ∀ addr : Word, .read addr ∈ accesses → Memory.read m addr.toNat = byteAt s addr

theorem SameReads.memRead {s : State} {m : Memory} {accesses : List Access} (h : SameReads s m accesses)
    {addr : Word} (ha : .read addr ∈ accesses) : memRead (s.setMem m) addr = memRead s addr :=
  memRead_setMem_congr (h addr ha)

theorem sameReads_append {s : State} {m : Memory} {xs ys : List Access} :
    SameReads s m (xs ++ ys) ↔ SameReads s m xs ∧ SameReads s m ys := by
  simp [SameReads, or_imp, forall_and]

theorem fetch_setMem {s : State} {m : Memory} (h : SameReads s m (fetchAccesses s)) :
    fetch (s.setMem m) = fetch s := by
  have h0 := h.memRead (read_pc_mem_fetchAccesses s)
  by_cases hb : memRead s s.pc = .ok Config.prefixByte
  · have h1 := h.memRead (addr := add16 s.pc 1) (by simp [fetchAccesses, hb])
    simp only [fetch, State.setMem_pc, h0, h1]
  · simp only [fetch, State.setMem_pc, h0]
    cases hc : memRead s s.pc with
    | error flt => rfl
    | ok b =>
      have hne : b ≠ Config.prefixByte := fun e => hb (by rw [hc, e])
      simp [hne]

/-- The instruction fetched is a function of what Fetch gives. -/
theorem fetchedInstruction_congr {s t : State} (h : fetch t = fetch s) :
    fetchedInstruction t = fetchedInstruction s :=
  Option.ext fun ins => by rw [fetchedInstruction_some_iff, fetchedInstruction_some_iff, h]

theorem readSource_setMem {src : LoadSource} {s : State} {m : Memory} (h : SameReads s m (sourceAccesses src s)) :
    readSource src (s.setMem m) = readSource src s := by
  cases src with
  | reg r => exact congrArg Except.ok (State.setMem_getReg s m r)
  | memHL => exact h.memRead (by simp [sourceAccesses])
  | imm8 => exact h.memRead (by simp [sourceAccesses])

theorem readImm16_setMem {s : State} {m : Memory}
    (h : SameReads s m [.read (add16 s.pc 1), .read (add16 s.pc 2)]) : readImm16 (s.setMem m) = readImm16 s := by
  have h1 := h.memRead (addr := add16 s.pc 1) (by simp)
  have h2 := h.memRead (addr := add16 s.pc 2) (by simp)
  simp only [readImm16, State.setMem_pc, h1, h2]

/-- The same registers, flags and PC, and the same bytes written. -/
def SameWrites (accesses : List Access) (u u' : State) : Prop :=
  u'.setMem [] = u.setMem [] ∧ ∀ addr : Word, .write addr ∈ accesses → memRead u' addr = memRead u addr

/-- Executions that end alike: with the same fault, or at the same next_pc in states related by `SameWrites`. -/
inductive EndAlike (accesses : List Access) : Executed → Executed → Prop
  | fault (flt : Fault) : EndAlike accesses (.error flt) (.error flt)
  | done {u u' : State} (w : Word) (h : SameWrites accesses u u') : EndAlike accesses (.ok (u, w)) (.ok (u', w))

/-- States that differ in memory alone, where nothing is written. -/
theorem sameWrites_setMem {ins : Instruction} (h : ∀ src, ins ≠ .ld .memHL src) (s u : State) (m : Memory) :
    SameWrites (executeAccesses ins s) u (u.setMem m) := by
  refine ⟨rfl, fun addr ha => ?_⟩
  obtain ⟨-, src, hins⟩ := write_mem_executeAccesses_iff.1 ha
  exact absurd hins (h src)

theorem executeAdd_setMem (r : Reg) (s : State) (m : Memory) :
    EndAlike (executeAccesses (.add r) s) (executeAdd r s) (executeAdd r (s.setMem m)) := by
  simp only [executeAdd, State.setMem_a, State.setMem_pc, State.setMem_getReg]
  exact .done _ (sameWrites_setMem (by simp) s _ m)

/-- The value written is the same, and a store writes it at the same address. -/
theorem writeTarget_setMem (tgt : LoadTarget) (src : LoadSource) (v : Byte) (s : State) (m : Memory) (w : Word) :
    EndAlike (executeAccesses (.ld tgt src) s) ((writeTarget tgt v s).map (·, w))
      ((writeTarget tgt v (s.setMem m)).map (·, w)) := by
  cases tgt with
  | reg r =>
    have hset : (s.setMem m).setReg r v = (s.setReg r v).setMem m := by cases r <;> rfl
    simp only [writeTarget, hset]
    exact .done w (sameWrites_setMem (by simp) s _ m)
  | memHL =>
    simp only [writeTarget, memWrite, State.setMem_hl, State.setMem_mem]
    by_cases hb : backed s.hl = true
    · simp only [hb, if_true]
      refine .done w ⟨rfl, fun addr ha => ?_⟩
      obtain ⟨rfl, -⟩ := write_mem_executeAccesses_iff.1 ha
      exact (memRead_write_same s hb m v).trans (memRead_write_same s hb s.mem v).symm
    · simp only [hb]
      exact .fault _

theorem executeLd_of_source {tgt : LoadTarget} {src : LoadSource} {s : State} {v : Byte}
    (h : readSource src s = .ok v) :
    executeLd tgt src s = (writeTarget tgt v s).map (·, add16 s.pc (loadAdvance src)) := by
  simp only [executeLd, h]
  cases writeTarget tgt v s <;> rfl

theorem executeLd_setMem {tgt : LoadTarget} {src : LoadSource} {s : State} {m : Memory}
    (h : SameReads s m (sourceAccesses src s)) :
    EndAlike (executeAccesses (.ld tgt src) s) (executeLd tgt src s) (executeLd tgt src (s.setMem m)) := by
  have hsrc := readSource_setMem h
  cases hv : readSource src s with
  | error flt =>
    rw [executeLd_error_iff.2 (.inl hv), executeLd_error_iff.2 (.inl (hsrc.trans hv))]
    exact .fault flt
  | ok v =>
    rw [executeLd_of_source hv, executeLd_of_source (hsrc.trans hv)]
    exact writeTarget_setMem tgt src v s m _

theorem executeJp_setMem {cnd : JumpCond} {s : State} {m : Memory}
    (h : SameReads s m (executeAccesses (.jp cnd) s)) :
    EndAlike (executeAccesses (.jp cnd) s) (executeJp cnd s) (executeJp cnd (s.setMem m)) := by
  have hsame := sameWrites_setMem (ins := .jp cnd) (by simp) s s m
  by_cases hc : condHolds cnd s.f = true
  · have hread : readImm16 (s.setMem m) = readImm16 s := readImm16_setMem (by simpa [executeAccesses, hc] using h)
    simp only [executeJp, State.setMem_f, hc, if_true, hread]
    cases readImm16 s with
    | error flt => exact .fault flt
    | ok target => exact .done target hsame
  · simp only [executeJp, State.setMem_f, hc]
    exact .done _ hsame

/-- Execute with another memory that agrees where it reads ends alike. -/
theorem execute_setMem {ins : Instruction} {s : State} {m : Memory} (h : SameReads s m (executeAccesses ins s)) :
    EndAlike (executeAccesses ins s) (execute ins s) (execute ins (s.setMem m)) := by
  cases ins with
  | add r => exact executeAdd_setMem r s m
  | ld tgt src => exact executeLd_setMem (sameReads_append.1 h).1
  | jp cnd => exact executeJp_setMem h

/-! ### A session, and one CORE of several -/

theorem sessionStep_of_next {x : Session} {t : State} (hp : ∀ flt, x.phase ≠ .stopped flt)
    (h : step x.cpu = .next t) : sessionStep x = .ok ({ cpu := t, phase := .running }, none) := by
  unfold sessionStep
  cases hx : x.phase with
  | stopped flt => exact absurd hx (hp flt)
  | loading | running => simp [h]

theorem sessionStep_of_fault {x : Session} {flt : Fault} (hp : ∀ flt, x.phase ≠ .stopped flt)
    (h : step x.cpu = .fault flt) :
    sessionStep x = .ok ({ cpu := x.cpu, phase := .stopped flt }, some flt) := by
  unfold sessionStep
  cases hx : x.phase with
  | stopped flt => exact absurd hx (hp flt)
  | loading | running => simp [h]

theorem sessionStep_of_stopped {x : Session} {flt : Fault} (h : x.phase = .stopped flt) :
    sessionStep x = .error .stepAfterFault := by
  simp [sessionStep, h]

/-- No session is loading after a Step (60_exceptions.md R176). -/
theorem sessionStep_ok_not_loading {x x' : Session} {o : Option Fault} (h : sessionStep x = .ok (x', o)) :
    x'.phase ≠ .loading := by
  have hp : ∀ flt, x.phase ≠ .stopped flt := fun flt hx => by simp [sessionStep_of_stopped hx] at h
  rcases step_next_or_fault x.cpu with ⟨t, hs⟩ | ⟨flt, hs⟩
  · rw [sessionStep_of_next hp hs] at h
    cases h
    simp
  · rw [sessionStep_of_fault hp hs] at h
    cases h
    simp

/-- One Step of CORE `k` of several is the Step of its state, put back in its place. -/
theorem stepInstance_next_iff {k : Nat} {cpus cpus' : List State} :
    stepInstance k cpus = some (.next cpus') ↔
      ∃ s t, cpus[k]? = some s ∧ step s = .next t ∧ cpus' = cpus.set k t := by
  unfold stepInstance
  cases hk : cpus[k]? with
  | none => simp
  | some s => cases hs : step s <;> simp [hs, eq_comm]

/-! ### The statements -/

/-- Settles O11: a Step is Execute and Commit, and Execute keeps the canonical form. -/
theorem stepKeepsMemoryCanonical : Obligations.StepKeepsMemoryCanonical := by
  intro s t hs hstep
  obtain ⟨ins, u, w, -, he, rfl⟩ := step_next_fetched hstep
  rw [commit_mem]
  exact execute_wf he hs

/-- Settles O6, by what MemRead answers at a backed address. -/
theorem memReadAnswersTheByteOrFaults : Obligations.MemReadAnswersTheByteOrFaults := by
  intro s addr
  constructor
  · exact fun hle => memRead_of_ne_top (ne_top_of_toNat_le hle) s
  · rintro rfl
    exact memRead_top s

/-- Settles O7: a write is read back, and every other address reads as before. -/
theorem memWriteChangesOneByteOnly : Obligations.MemWriteChangesOneByteOnly := by
  intro s addr v
  constructor
  · intro hle
    have hb := (backed_iff addr).2 (ne_top_of_toNat_le hle)
    exact ⟨_, memWrite_ok_iff.2 ⟨hb, rfl⟩, memRead_write_same s hb s.mem v, fun k hk => memRead_write_other s hk v,
      State.setMem_getReg s _, rfl, rfl⟩
  · rintro rfl
    exact memWrite_top s v

/-- Settles O8: the second write forgets the first. -/
theorem memWriteRepeatedChangesNothing : Obligations.MemWriteRepeatedChangesNothing := by
  intro s u addr v h
  obtain ⟨hb, rfl⟩ := memWrite_ok_iff.1 h
  refine memWrite_ok_iff.2 ⟨hb, ?_⟩
  rw [State.setMem_mem, Memory.write_write]
  rfl

/-- Settles O9: in canonical form the bytes read determine the cells listed, and their order is strict. -/
theorem canonicalMemoriesAreEqualWhenTheyReadAlike : Obligations.CanonicalMemoriesAreEqualWhenTheyReadAlike := by
  intro m m' h h' hread
  have hmem : ∀ cell : Host.Cell, cell.1 < Config.memSize → (cell ∈ m ↔ cell ∈ m') := fun cell hlt => by
    rw [Memory.mem_iff_read h, Memory.mem_iff_read h', hread _ hlt]
  have : Std.Irrefl fun x y : Host.Cell => x.1 < y.1 := ⟨fun x => lt_irrefl x.1⟩
  have : Std.Antisymm fun x y : Host.Cell => x.1 < y.1 := ⟨fun x y hxy hyx => absurd hxy hyx.asymm⟩
  refine h.1.eq_of_mem_iff h'.1 fun cell => ⟨fun hm => ?_, fun hm => ?_⟩
  · exact (hmem cell (h.2 cell hm).1).1 hm
  · exact (hmem cell (h'.2 cell hm).1).2 hm

/-- Settles O12: Load is the writes in order, of which the last one at an address stands. -/
theorem loadStoresTheGivenBytes : Obligations.LoadStoresTheGivenBytes := by
  intro items s hitems
  refine ⟨_, load_eq_writeAll hitems s, State.setMem_getReg s _, rfl, rfl, Memory.writeAll_wf hitems,
    fun addr _ => ?_⟩
  rw [byteAt, State.setMem_mem, Memory.read_writeAll]
  cases items.reverse.find? fun item => item.1 == addr <;> rfl

/-- Settles O47: Execute leaves every byte it does not write, and only a store writes, at HL. -/
theorem memoryChangesOnlyByAStoreAtHL : Obligations.MemoryChangesOnlyByAStoreAtHL := by
  intro s t addr hstep hne
  obtain ⟨ins, u, w, hf, he, rfl⟩ := step_next_fetched hstep
  have hw : .write addr ∈ executeAccesses ins s := by
    by_contra hn
    exact hne ((memRead_commit u w addr).trans (execute_memRead_of_not_written he hn))
  obtain ⟨haddr, src, rfl⟩ := write_mem_executeAccesses_iff.1 hw
  exact ⟨haddr, src, hf⟩

/-- Settles O49: the store leaves its byte at HL, and the next Fetch reads the same memory. -/
theorem storeIsSeenByTheNextFetch : Obligations.StoreIsSeenByTheNextFetch := by
  intro s t src v hf hv hstep
  rw [step_of_fetched hf] at hstep
  obtain ⟨u, w, he, rfl⟩ := finish_next_iff.1 hstep
  have hread : memRead (commit u w) s.hl = .ok v := by
    obtain ⟨v', hv', hw, -⟩ := executeLd_ok_iff.1 he
    obtain rfl : v = v' := Except.ok.inj (hv.symm.trans hv')
    rcases writeTarget_ok_iff.1 hw with ⟨r, hr, -⟩ | ⟨-, hb, rfl⟩
    · cases hr
    · exact memRead_write_same s hb s.mem v
  refine ⟨hread, fun hpc hne => fetch_ok_iff.2 (.inl ⟨v, ?_, hne, rfl⟩)⟩
  rw [hpc]
  exact hread

/-- Settles O52, for a Step that fetches no instruction and for one that executes. -/
theorem addressFaultIffAnAccessIsUnbacked : Obligations.AddressFaultIffAnAccessIsUnbacked := by
  intro s
  change _ ↔ Unbacked (stepAccesses s)
  cases hi : fetchedInstruction s with
  | none =>
    rw [stepAccesses_of_not_fetched hi]
    cases hf : fetch s with
    | error flt =>
      obtain ⟨hu, rfl⟩ := fetch_error_iff_unbacked.1 hf
      simp [step_of_fetch_error hf, hu]
    | ok got =>
      simp [step_of_not_fetched hi hf, not_unbacked_of_fetch_ok hf]
  | some ins =>
    obtain ⟨b, -, hf, -⟩ := fetchedInstruction_some_iff.1 hi
    simp [stepAccesses_of_fetched hi, not_unbacked_of_fetch_ok hf, step_of_fetched hi, finish_fault_iff,
      execute_error_iff_unbacked]

/-- Settles O53: Fetch and Execute read the same bytes, so both Steps end alike; what a Step does not write stays. -/
theorem stepDependsOnlyOnTheBytesItReads : Obligations.StepDependsOnlyOnTheBytesItReads := by
  intro s m hreads
  cases hi : fetchedInstruction s with
  | none =>
    have hfetch := fetch_setMem (s := s) (m := m) (stepAccesses_of_not_fetched hi ▸ hreads)
    have hi' := (fetchedInstruction_congr hfetch).trans hi
    cases hf : fetch s with
    | error flt => simp [step_of_fetch_error hf, step_of_fetch_error (hfetch.trans hf)]
    | ok got => simp [step_of_not_fetched hi hf, step_of_not_fetched hi' (hfetch.trans hf)]
  | some ins =>
    have hacc := stepAccesses_of_fetched hi
    obtain ⟨hrf, hre⟩ : SameReads s m (fetchAccesses s) ∧ SameReads s m (executeAccesses ins s) :=
      sameReads_append.1 (hacc ▸ hreads)
    have hi' := (fetchedInstruction_congr (fetch_setMem hrf)).trans hi
    have halike := execute_setMem hre
    simp only [step_of_fetched hi, step_of_fetched hi', hacc, List.mem_append, write_not_mem_fetchAccesses, false_or]
    generalize hx : execute ins s = x, hx' : execute ins (s.setMem m) = x' at halike
    cases halike with
    | fault flt => rfl
    | done w hsame =>
      obtain ⟨hstate, hwritten⟩ := hsame
      refine ⟨congrArg (commit · w) hstate, fun addr => ⟨hwritten addr, fun hn => ?_⟩⟩
      have hn' : .write addr ∉ executeAccesses ins (s.setMem m) := by rwa [executeAccesses_setMem]
      have hframe := execute_memRead_of_not_written hx hn
      have hframe' := execute_memRead_of_not_written hx' hn'
      exact ⟨hframe, hframe'⟩

/-- Settles O55: what a session's Load and Step do by phase, and that a Step leaves no session loading. -/
theorem loadOnlyBeforeTheFirstStep : Obligations.LoadOnlyBeforeTheFirstStep := by
  refine ⟨rfl, fun x items hp hitems => ?_, fun x x' o items h => ?_, fun x hp => ?_,
    fun x flt => sessionStep_of_stopped⟩
  · exact ⟨_, load_eq_writeAll hitems x.cpu, by simp [sessionLoad, hp, load_eq_writeAll hitems]⟩
  · exact sessionLoad_error_iff.2 ⟨sessionStep_ok_not_loading h, rfl⟩
  · rcases step_next_or_fault x.cpu with ⟨t, hs⟩ | ⟨flt, hs⟩
    · exact .inl ⟨t, hs, sessionStep_of_next hp hs⟩
    · exact .inr ⟨flt, hs, sessionStep_of_fault hp hs⟩

/-- Settles O57: the Step of one CORE sets that place of the list and no other. -/
theorem instancesShareNothing : Obligations.InstancesShareNothing := by
  intro k cpus cpus' h
  obtain ⟨s, t, hk, hs, rfl⟩ := stepInstance_next_iff.1 h
  obtain ⟨hlt, -⟩ := List.getElem?_eq_some_iff.1 hk
  exact ⟨⟨s, t, hk, hs, List.getElem?_set_self hlt⟩, fun j hj => List.getElem?_set_ne hj.symm, List.length_set⟩

end Sys2Proof.Proofs
end

section
/-! SUPPORT. The statements of 30_encoding.md. The facts they rest on come first, each said once: which rows, values
of R77 and bytes the opcode table holds, what the decoder on bytes answers, what the encoder writes, and the length
the first byte tells. -/

namespace Sys2Proof.Proofs

open Sys2Proof.Machine Sys2Proof.Claims

/-! ### The opcode table: its rows, the values of R77 it holds, its bytes -/

/-- The table gives the one opcode byte of a row back to the row. -/
theorem decodeOpcode_row {i : Instr} {ins : Instruction} (h : i.instruction = some ins) :
    ∃ op, i.opcodeBytes = [op] ∧ decodeOpcode op false = some i := by
  cases i with
  | prefixCB op => cases h
  | _ => exact ⟨_, rfl, rfl⟩

/-- The table decodes the opcode byte the fields of R62 give to a value of R77. -/
theorem decodes_of_opcode {op : Byte} {ins : Instruction} (h : ins.opcode = some op) : Decodes op ins := by
  cases ins with
  | add r => cases h; cases r <;> exact ⟨_, rfl, rfl⟩
  | jp c => cases c <;> cases h <;> exact ⟨_, rfl, rfl⟩
  | ld t src =>
    cases src with
    | reg r' =>
      cases h
      cases t with
      | reg r => cases r <;> cases r' <;> exact ⟨_, rfl, rfl⟩
      | memHL => cases r' <;> exact ⟨_, rfl, rfl⟩
    | memHL =>
      cases t with
      | reg r => cases h; cases r <;> exact ⟨_, rfl, rfl⟩
      | memHL => cases h
    | imm8 =>
      cases h
      cases t with
      | reg r => cases r <;> exact ⟨_, rfl, rfl⟩
      | memHL => exact ⟨_, rfl, rfl⟩

/-- A byte decodes to a value of R77 exactly when it is the byte the fields of R62 give it. -/
theorem decodes_iff {op : Byte} {ins : Instruction} : Decodes op ins ↔ ins.opcode = some op := by
  refine ⟨?_, decodes_of_opcode⟩
  rintro ⟨i, hd, hi⟩
  obtain ⟨ins', hi', -, hop, -⟩ := decodeOpcode_some hd
  rwa [Option.some.inj (hi.symm.trans hi')]

/-- The fields of R62 name every value of R77 but LD (HL),(HL) (42_ld.md R126). -/
theorem opcode_eq_none_iff {ins : Instruction} : ins.opcode = none ↔ ins = .ld .memHL .memHL := by
  cases ins with
  | add r => simp [Instruction.opcode]
  | ld t src => cases t <;> cases src <;> simp [Instruction.opcode]
  | jp c => cases c <;> simp [Instruction.opcode]

/-- 0xCB is no opcode of the table (30_encoding.md R69). -/
@[simp] theorem decodeOpcode_prefixByte : decodeOpcode Config.prefixByte false = none := rfl

theorem tableLookup_eq_none_iff {op : Byte} {rows : List (Byte × Instr)} :
    tableLookup op rows = none ↔ op.toNat ∉ rows.map fun row => row.1.toNat := by
  induction rows with
  | nil => simp [tableLookup]
  | cons row rows ih =>
    by_cases h : row.1 = op
    · simp [tableLookup, h]
    · simp only [tableLookup, h, if_false, ih, List.map_cons, List.mem_cons, BitVec.toNat_inj, Ne.symm h, false_or]

/-- The opcodes of the table: all of 0x40 to 0x75 and of 0x77 to 0x85, and fourteen more. -/
theorem unprefixedTable_opcodes :
    (unprefixedTable.map fun row => row.1.toNat) =
      [0x06, 0x0E, 0x16, 0x1E, 0x26, 0x2E, 0x36, 0x3E] ++ List.range' 0x40 54 ++ List.range' 0x77 15 ++
        [0x87, 0xC2, 0xC3, 0xCA, 0xD2, 0xDA] := rfl

theorem decodeOpcode_eq_none_iff {op : Byte} :
    decodeOpcode op false = none ↔ op.toNat ∉ unprefixedTable.map fun row => row.1.toNat :=
  tableLookup_eq_none_iff

/-! ### The decoder on bytes -/

/-- The byte strings a row is decoded from: 0xCB and another byte, or an opcode of the table. -/
theorem decode_row_iff {bytes : List Byte} {i : Instr} :
    decode bytes = .row i ↔
      (∃ op rest, bytes = Config.prefixByte :: op :: rest ∧ i = .prefixCB op) ∨
      ∃ op rest, bytes = op :: rest ∧ decodeOpcode op false = some i := by
  cases bytes with
  | nil => simp [decode]
  | cons b rest =>
    by_cases hb : b = Config.prefixByte
    · subst hb
      cases rest <;> simp [decode, eq_comm]
    · cases hd : decodeOpcode b false <;> simp [decode, hb, hd]

/-! ### The encoder: an opcode of the table, then the operand bytes of the format (R61) -/

theorem encode_eq_cons {i : Instr} {ins : Instruction} (h : i.instruction = some ins) (d8 : Byte) (a16 : Word) :
    ∃ op, decodeOpcode op false = some i ∧ encode i d8 a16 = op :: ins.format.operandBytes d8 a16 := by
  obtain ⟨op, hbytes, hd⟩ := decodeOpcode_row h
  exact ⟨op, hd, by simp [encode, hbytes, Instr.format, h]⟩

theorem encode_length {i : Instr} {ins : Instruction} (h : i.instruction = some ins) (d8 : Byte) (a16 : Word) :
    (encode i d8 a16).length = ins.length := by
  obtain ⟨op, -, he⟩ := encode_eq_cons h d8 a16
  rw [he]
  cases ins with
  | ld t src => cases src <;> rfl
  | _ => rfl

/-! ### The length the first byte tells (R73), by its fields -/

@[simp] theorem opcodeX_opcodeOf (x : BitVec 2) (y z : BitVec 3) : opcodeX (opcodeOf x y z) = x :=
  (BitVec.extractLsb'_append_eq_of_le (by decide)).trans BitVec.extractLsb'_append_eq_left

@[simp] theorem opcodeZ_opcodeOf (x : BitVec 2) (y z : BitVec 3) : opcodeZ (opcodeOf x y z) = z :=
  BitVec.extractLsb'_append_eq_right

theorem opcodeLength_of_decodes {op : Byte} {ins : Instruction} (h : Decodes op ins) :
    opcodeLength op = some ins.length := by
  have hop := decodes_iff.1 h
  obtain ⟨i, hd, -⟩ := h
  simp only [opcodeLength, hd]
  cases ins with
  | add r => cases hop; simp [Instruction.length, Instruction.format, Format.length]
  | jp c => cases c <;> cases hop <;> rfl
  | ld t src =>
    cases src with
    | reg r => cases hop; simp [Instruction.length, Instruction.format, Format.length]
    | memHL =>
      cases t with
      | reg r => cases hop; simp [Instruction.length, Instruction.format, Format.length]
      | memHL => cases hop
    | imm8 => cases hop; simp [memCode, Instruction.length, Instruction.format, Format.length]

/-! ### The statements -/

/-- Settles O13: an encoding begins with 0xCB and the row's byte, or with the row's opcode of the table. -/
theorem decodeOfEncodeIsTheRow : Obligations.DecodeOfEncodeIsTheRow := by
  intro i d8 a16 rest
  rw [decode_row_iff]
  cases hi : i.instruction with
  | some ins =>
    obtain ⟨op, hd, he⟩ := encode_eq_cons hi d8 a16
    exact .inr ⟨op, _, by rw [he, List.cons_append], hd⟩
  | none =>
    cases i with
    | prefixCB op => exact .inl ⟨op, rest, rfl, rfl⟩
    | _ => cases hi

/-- Settles O14, by the byte strings a row is decoded from. -/
theorem decodedBytesAreTheRowsOpcode : Obligations.DecodedBytesAreTheRowsOpcode := by
  intro bytes i h
  rcases decode_row_iff.1 h with ⟨op, rest, rfl, rfl⟩ | ⟨op, rest, rfl, hd⟩
  · exact ⟨rest, rfl⟩
  · obtain ⟨-, -, -, -, hbytes⟩ := decodeOpcode_some hd
    exact ⟨rest, by rw [hbytes, List.singleton_append]⟩

/-- Settles O19: the one opcode is the byte the fields give. -/
theorem everyInstructionButOneHasOneOpcode : Obligations.EveryInstructionButOneHasOneOpcode := by
  simp only [Obligations.EveryInstructionButOneHasOneOpcode, decodes_iff]
  refine ⟨fun ins hne => ?_, fun op h => by cases h⟩
  obtain ⟨op, hop⟩ := Option.ne_none_iff_exists'.1 (mt opcode_eq_none_iff.1 hne)
  exact ⟨op, hop, fun op' hop' => Option.some.inj (hop'.symm.trans hop)⟩

/-- Settles O20: the length by the fields and the length of the encoding are both that of the format. -/
theorem firstByteTellsTheLength : Obligations.FirstByteTellsTheLength := by
  refine ⟨fun op i ins d8 a16 hd hi => ?_, fun op hd => by simp only [opcodeLength, hd]⟩
  rw [encode_length hi]
  refine ⟨opcodeLength_of_decodes ⟨i, hd, hi⟩, ?_⟩
  cases ins with
  | ld t src => cases src <;> rfl
  | _ => rfl

/-- Settles O21: after the opcode stand the operand bytes, the low byte of a16 first. -/
theorem encodedOperandsAreReadBack : Obligations.EncodedOperandsAreReadBack := by
  refine fun s i d8 a16 hbytes => ⟨fun t hi => ?_, fun c hi => ?_⟩
  all_goals
    obtain ⟨op, -, he⟩ := encode_eq_cons hi d8 a16
    obtain ⟨-, hoperand⟩ := holdsAt_cons.1 (he ▸ hbytes)
  · exact (holdsAt_cons.1 hoperand).1
  · obtain ⟨hlo, hrest⟩ := holdsAt_cons.1 hoperand
    obtain ⟨hhi, -⟩ := holdsAt_cons.1 hrest
    rw [add16_eq, add16_eq, add_assoc] at hhi
    exact readImm16_ok_iff.2 ⟨_, _, hlo, hhi, (wordOf_hiByte_loByte a16).symm⟩

/-- Settles O15, by decoding each of the nine. -/
theorem writtenOutOpcodesDecode : Obligations.WrittenOutOpcodesDecode := by
  unfold Obligations.WrittenOutOpcodesDecode
  decide

/-- Settles O16: the prefixed table has no row, and the unprefixed one none for 0xCB and 0x00. -/
theorem prefixedTableIsEmpty : Obligations.PrefixedTableIsEmpty :=
  ⟨decodeOpcode_prefixed, decodeOpcode_prefixByte, rfl⟩

/-- Settles O17: the ranges listed are the complement of the table's opcodes. -/
theorem unrecognizedOpcodesAreTheListed : Obligations.UnrecognizedOpcodesAreTheListed := by
  intro op
  have hlt := op.isLt
  rw [decodeOpcode_eq_none_iff, unprefixedTable_opcodes]
  simp only [inRange, ← BitVec.toNat_inj, BitVec.reduceToNat, List.mem_append, List.mem_cons, List.not_mem_nil,
    or_false, List.mem_range'_1]
  omega

/-- Settles O18: each pattern is the byte the fields give its value. -/
theorem opcodeFieldsSelectTheInstruction : Obligations.OpcodeFieldsSelectTheInstruction := by
  refine ⟨by decide, ?_⟩
  simp only [decodes_iff]
  exact ⟨fun _ _ => rfl, fun _ => rfl, fun _ => rfl, fun _ => rfl, rfl, fun _ => rfl, rfl, rfl, rfl, rfl, rfl⟩

/-- Settles O38, by the meaning of the row of 0xCB. -/
theorem prefixMarkerStops : Obligations.PrefixMarkerStops := fun _ _ => rfl

end Sys2Proof.Proofs
end

section
/-! SUPPORT. The statements of 40_step_cycle.md. The facts they rest on come first, each said once: the
instruction Fetch and Decode give, the next_pc of Execute, the Step where bytes stand at PC and how bytes come to
stand there, and runs. -/

namespace Sys2Proof.Proofs

open Sys2Proof.Machine Sys2Proof.Claims

/-! ### Fetch and Decode -/

/-- The fetched instruction is what Decode gives for the byte and mark of Fetch (40_step_cycle.md R82). -/
theorem fetchedInstruction_of_fetch {s : State} {got : Fetched} (h : fetch s = .ok got) :
    fetchedInstruction s = (decodeOpcode got.op got.isPrefixed).bind Instr.instruction := by
  rcases fetch_ok_iff.1 h with ⟨b, hb, -, rfl⟩ | ⟨hb, op, -, rfl⟩ <;>
    simp [fetchedInstruction, hb, decodeOpcode_prefixed]

/-! ### next_pc (40_step_cycle.md R85) -/

theorem writeTarget_pc {tgt : LoadTarget} {v : Byte} {s t : State} (h : writeTarget tgt v s = .ok t) :
    t.pc = s.pc := by
  rcases writeTarget_ok_iff.1 h with ⟨r, -, rfl⟩ | ⟨-, -, rfl⟩ <;> simp

/-- Execute does not move PC (10_state.md R23). -/
theorem execute_pc {ins : Instruction} {s t : State} {w : Word} (h : execute ins s = .ok (t, w)) : t.pc = s.pc := by
  cases ins with
  | add r =>
    obtain ⟨rfl, -⟩ := executeAdd_ok_iff.1 h
    simp
  | ld tgt src =>
    obtain ⟨v, -, hw, -⟩ := executeLd_ok_iff.1 h
    exact writeTarget_pc hw
  | jp cnd =>
    obtain ⟨rfl, -⟩ := executeJp_ok_iff.1 h
    rfl

theorem eq_jumpTarget_of_readImm16 {s : State} {w : Word} (h : readImm16 s = .ok w) : w = jumpTarget s := by
  obtain ⟨lo, hi, hlo, hhi, rfl⟩ := readImm16_ok_iff.1 h
  obtain ⟨-, rfl⟩ := memRead_ok_iff.1 hlo
  obtain ⟨-, rfl⟩ := memRead_ok_iff.1 hhi
  rfl

/-- next_pc is the operand of a taken jump, and PC plus the length of any other instruction. -/
theorem execute_nextPc {ins : Instruction} {s t : State} {w : Word} (h : execute ins s = .ok (t, w)) :
    (∃ c, ins = .jp c ∧ condHolds c s.f = true ∧ w = jumpTarget s) ∨
      ((∀ c, ins = .jp c → condHolds c s.f = false) ∧ w = s.pc + BitVec.ofNat 16 ins.length) := by
  cases ins with
  | add r =>
    obtain ⟨-, rfl⟩ := executeAdd_ok_iff.1 h
    exact .inr ⟨nofun, rfl⟩
  | ld tgt src =>
    obtain ⟨v, -, -, rfl⟩ := executeLd_ok_iff.1 h
    exact .inr ⟨nofun, by cases src <;> rfl⟩
  | jp cnd =>
    obtain ⟨-, ⟨hc, hw⟩ | ⟨hc, rfl⟩⟩ := executeJp_ok_iff.1 h
    · exact .inl ⟨cnd, rfl, hc, eq_jumpTarget_of_readImm16 hw⟩
    · refine .inr ⟨?_, rfl⟩
      rintro _ ⟨⟩
      exact hc

/-! ### Bytes standing at PC, and placing them there -/

/-- A Step runs the row the bytes at PC decode to; for the row of 0xCB both end with the same fault. -/
theorem step_of_holdsAt {s : State} {bytes : List Byte} {i : Instr} (hbytes : holdsAt s s.pc bytes = true)
    (hdec : decode bytes = .row i) : step s = exec i s := by
  rcases decode_row_iff.1 hdec with ⟨op, rest, rfl, rfl⟩ | ⟨op, rest, rfl, hd⟩
  · obtain ⟨hprefix, hrest⟩ := holdsAt_cons.1 hbytes
    have hf : fetch s = .ok ⟨op, true⟩ := fetch_ok_iff.2 (.inr ⟨hprefix, op, (holdsAt_cons.1 hrest).1, rfl⟩)
    exact step_of_not_fetched (fetchedInstruction_of_fetch hf) hf
  · obtain ⟨ins, hi, -⟩ := decodeOpcode_some hd
    rw [step_of_fetched (fetchedInstruction_eq_some (holdsAt_cons.1 hbytes).1 hd hi), exec_eq_finish hi]

@[simp] theorem placeBytes_pc (vs : List Byte) (addr : Word) (s : State) : (placeBytes s addr vs).pc = s.pc := by
  induction vs generalizing addr s with
  | nil => rfl
  | cons v vs ih =>
    unfold placeBytes
    split
    · rename_i h
      obtain ⟨-, rfl⟩ := memWrite_ok_iff.1 h
      rw [ih, State.setMem_pc]
    · exact ih ..

theorem toNat_add_one_of_lt_top {addr : Word} (h : addr.toNat < 0xFFFF) : (addr + 1#16).toNat = addr.toNat + 1 :=
  BitVec.toNat_add_of_lt (Nat.succ_lt_succ h)

/-- Bytes placed without running past the top leave every address below them. -/
theorem memRead_placeBytes_below {vs : List Byte} {addr k : Word} (hk : k.toNat < addr.toNat)
    (hfit : addr.toNat + vs.length ≤ 0xFFFF) (s : State) : memRead (placeBytes s addr vs) k = memRead s k := by
  induction vs generalizing addr s with
  | nil => rfl
  | cons v vs ih =>
    rw [List.length_cons] at hfit
    have hnext := toNat_add_one_of_lt_top (addr := addr) (by omega)
    have hne : k ≠ addr := fun e => hk.ne (congrArg BitVec.toNat e)
    rw [placeBytes_cons (ne_top_of_toNat_le (by omega)), ih (by omega) (by omega), memRead_write_other s hne]

/-- Bytes placed without running past the top stand where they were placed. -/
theorem holdsAt_placeBytes {vs : List Byte} {addr : Word} (hfit : addr.toNat + vs.length ≤ 0xFFFF) (s : State) :
    holdsAt (placeBytes s addr vs) addr vs = true := by
  induction vs generalizing addr s with
  | nil => rfl
  | cons v vs ih =>
    rw [List.length_cons] at hfit
    have hnext := toNat_add_one_of_lt_top (addr := addr) (by omega)
    have htop : addr ≠ 0xFFFF := ne_top_of_toNat_le (by omega)
    rw [placeBytes_cons htop]
    refine holdsAt_cons.2 ⟨?_, ih (by omega) _⟩
    rw [memRead_placeBytes_below (by omega) (by omega)]
    exact memRead_write_same s ((backed_iff addr).2 htop) s.mem v

theorem decodeTableWord_eq_some_iff {nbits w : Nat} {i : Instr} :
    decodeTableWord nbits w = some i ↔ decode (tableBytes nbits w) = .row i := by
  unfold decodeTableWord
  cases decode (tableBytes nbits w) <;> simp [Verdict.instr?]

@[simp] theorem tableBytes_length (nbits w : Nat) : (tableBytes nbits w).length = maxInstrBytes := by
  simp [tableBytes]

/-! ### Runs -/

/-- A run takes its first Step and goes on from there. -/
theorem runsTo_succ {n : Nat} {s t u : State} (hstep : step s = .next u) (h : Safety.RunsTo n u t) :
    Safety.RunsTo (n + 1) s t := by
  have hcore : core.step s = .next u := hstep
  simpa only [Safety.RunsTo, Host.Core.run, hcore] using h

/-- A state that steps to itself is where every run from it ends. -/
theorem runsTo_self {s : State} (hstep : step s = .next s) (n : Nat) : Safety.RunsTo n s s := by
  induction n with
  | zero => rfl
  | succ n ih => exact runsTo_succ hstep ih

/-! ### The statements -/

/-- Settles O23, along the branches of the block: each is the Step by its Fetch and its instruction. -/
theorem stepIsTheBlockOfTheSpec : Obligations.StepIsTheBlockOfTheSpec := by
  intro s
  cases hb : memRead s s.pc with
  | error flt => exact step_of_fetch_error (fetch_error_iff.2 (.inl hb))
  | ok b0 =>
    by_cases hcb : b0 = 0xCB
    · subst hcb
      cases hop : memRead s (s.pc + 1) with
      | error flt => exact step_of_fetch_error (fetch_error_iff.2 (.inr ⟨hb, hop⟩))
      | ok op =>
        have hf : fetch s = .ok ⟨op, true⟩ := fetch_ok_iff.2 (.inr ⟨hb, op, hop, rfl⟩)
        exact step_of_not_fetched (fetchedInstruction_of_fetch hf) hf
    · have hf : fetch s = .ok ⟨b0, false⟩ := fetch_ok_iff.2 (.inl ⟨b0, hb, hcb, rfl⟩)
      simp only [hcb, if_false, ← fetchedInstruction_of_fetch hf]
      cases hi : fetchedInstruction s with
      | none => exact step_of_not_fetched hi hf
      | some ins =>
        rw [step_of_fetched hi]
        dsimp only
        cases execute ins s <;> rfl

/-- Settles O24: the length of each instruction, or the operand of the taken jump. -/
theorem nextPcOfEveryInstruction : Obligations.NextPcOfEveryInstruction := by
  intro ins s u nextPc h
  refine ⟨execute_pc h, ?_⟩
  rcases execute_nextPc h with ⟨c, rfl, hc, rfl⟩ | ⟨hc, rfl⟩
  · simp [hc]
  · cases ins with
    | add r => rfl
    | ld tgt src => cases src <;> rfl
    | jp c =>
      simp only [hc c rfl]
      rfl

/-- Settles O25: Commit moves PC to next_pc. -/
theorem onlyATakenJumpLeavesTheStraightPath : Obligations.OnlyATakenJumpLeavesTheStraightPath := by
  intro s t hstep
  obtain ⟨ins, u, w, hf, he, rfl⟩ := step_next_fetched hstep
  exact ⟨ins, hf, (execute_nextPc he).imp_right And.right⟩

/-- Settles O50: one such Step is the identity, since the operand of the jump is PC itself. -/
theorem jumpToSelfIdlesForever : Obligations.JumpToSelfIdlesForever := by
  intro n s hbytes
  have htarget : readImm16 s = .ok s.pc := (encodedOperandsAreReadBack s .jp 0 s.pc hbytes).2 .always rfl
  have hstep : step s = .next s := by
    rw [step_of_holdsAt (i := .jp) hbytes rfl]
    exact finish_next_iff.2 ⟨s, s.pc, executeJp_ok_iff.2 ⟨rfl, .inl ⟨rfl, htarget⟩⟩, rfl⟩
  exact runsTo_self hstep n

/-- Settles O58: the placed bytes stand at PC, which placing them does not move. -/
theorem placedWordIsTheNextInstruction : Obligations.PlacedWordIsTheNextInstruction := by
  intro s nbits w i hpc hdec
  refine step_of_holdsAt ?_ (decodeTableWord_eq_some_iff.1 hdec)
  rw [State.withFetchWord, placeBytes_pc]
  refine holdsAt_placeBytes ?_ s
  rw [tableBytes_length, maxInstrBytes]
  omega

/-- Settles O22, for the two shapes of bytes that decode to a row. -/
theorem stepRunsTheDecodedRow : Obligations.StepRunsTheDecodedRow := fun _ _ _ => step_of_holdsAt

/-- Settles O54: only a faulting Step of a session not yet stopped answers a fault, and it stops the session. -/
theorem faultingStepKeepsTheStateAndEndsTheRun : Obligations.FaultingStepKeepsTheStateAndEndsTheRun := by
  intro x x' flt h
  have hp : ∀ g, x.phase ≠ .stopped g := fun g hx => by simp [sessionStep_of_stopped hx] at h
  rcases step_next_or_fault x.cpu with ⟨t, hs⟩ | ⟨g, hs⟩
  · rw [sessionStep_of_next hp hs] at h
    cases h
  · rw [sessionStep_of_fault hp hs] at h
    cases h
    exact ⟨rfl, rfl, sessionStep_of_stopped rfl⟩

end Sys2Proof.Proofs
end

section
/-! SUPPORT. The statements of 41_add.md. The facts they rest on come first, each said once: the adder's result and
flags as sums of numbers, half-carry and carry as the carries of binary addition into bits 4 and 8, the adder on equal
operands, and what an ADD does to a state. -/

namespace Sys2Proof.Proofs

open Sys2Proof.Machine Sys2Proof.Claims

/-! ### The adder as sums of numbers (41_add.md R100) -/

theorem add8Result_eq_add (x y : Byte) : add8Result x y = x + y := by
  simp [BitVec.ofNat_add]

theorem add8Result_toNat (x y : Byte) : (add8Result x y).toNat = (x.toNat + y.toNat) % 256 :=
  BitVec.toNat_ofNat ..

theorem add8Result_eq_zero_iff (x y : Byte) : add8Result x y = 0 ↔ (x.toNat + y.toNat) % 256 = 0 := by
  rw [← BitVec.toNat_inj, add8Result_toNat]
  rfl

/-- A mask of the `k` lowest bits is the remainder by `2 ^ k`. -/
theorem toNat_and_lowMask (x : Byte) {mask : Byte} {k : Nat} (h : mask.toNat = 2 ^ k - 1) :
    (x &&& mask).toNat = x.toNat % 2 ^ k := by
  rw [BitVec.toNat_and, h, Nat.and_two_pow_sub_one_eq_mod]

theorem nibbleSum_eq_mod (x y : Byte) : nibbleSum x y = x.toNat % 16 + y.toNat % 16 := by
  have hlow (v : Byte) : (v &&& 0xF).toNat = v.toNat % 16 := toNat_and_lowMask v (k := 4) rfl
  rw [nibbleSum, hlow, hlow]

theorem add8Flags_eq_sums (x y : Byte) :
    add8Flags x y =
      { z := decide ((x.toNat + y.toNat) % 256 = 0)
        n := false
        h := decide (x.toNat % 16 + y.toNat % 16 > 15)
        c := decide (x.toNat + y.toNat > 255) } := by
  simp only [add8Flags, add8Result_eq_zero_iff, nibbleSum_eq_mod]

/-! ### Half-carry and carry are carries of binary addition -/

theorem add8Flags_h_eq_carry (x y : Byte) : (add8Flags x y).h = BitVec.carry 4 x y false := by
  rw [add8Flags_eq_sums]
  rfl

theorem add8Flags_c_eq_carry (x y : Byte) : (add8Flags x y).c = BitVec.carry 8 x y false := by
  rw [add8Flags_eq_sums, BitVec.carry, Nat.mod_eq_of_lt x.isLt, Nat.mod_eq_of_lt y.isLt]
  rfl

/-- The sum wraps exactly when it falls below an operand. -/
theorem add8Flags_c_eq_result_lt (x y : Byte) : (add8Flags x y).c = decide ((add8Result x y).toNat < x.toNat) := by
  have hx := x.isLt
  have hy := y.isLt
  rw [add8Flags_eq_sums, decide_eq_decide, add8Result_toNat]
  omega

/-- The top bit of a number of `k + 1` bits. -/
theorem testBit_eq_decide_le {n k : Nat} (h : n < 2 ^ (k + 1)) : n.testBit k = decide (2 ^ k ≤ n) := by
  by_cases hk : 2 ^ k ≤ n
  · rw [Nat.testBit_of_two_pow_le_and_two_pow_add_one_gt hk h, decide_eq_true hk]
  · rw [Nat.testBit_lt_two_pow (not_le.1 hk), decide_eq_false hk]

theorem add8Flags_c_eq_testBit (x y : Byte) : (add8Flags x y).c = (x.toNat + y.toNat).testBit 8 :=
  (testBit_eq_decide_le (Nat.add_lt_add x.isLt y.isLt)).symm

theorem add8Flags_h_eq_testBit (x y : Byte) :
    (add8Flags x y).h = ((x &&& 0xF).toNat + (y &&& 0xF).toNat).testBit 4 := by
  have hlt : nibbleSum x y < 2 ^ (4 + 1) := by
    rw [nibbleSum_eq_mod]
    omega
  exact (testBit_eq_decide_le hlt).symm

/-- A bit of the sum is the two operand bits and the carry into it, so the exclusive or of all three bytes leaves the
carry into each bit. -/
theorem xor_add_getLsbD (x y : Byte) {i : Nat} (h : i < 8) :
    (x ^^^ y ^^^ (x + y)).getLsbD i = BitVec.carry i x y false := by
  rw [BitVec.getLsbD_xor, BitVec.getLsbD_xor, BitVec.getLsbD_add h, ← Bool.xor_assoc (x.getLsbD i), ← Bool.xor_assoc,
    Bool.xor_self, Bool.false_xor]

theorem and_bit4_ne_zero_iff (x : Byte) : x &&& 0x10 ≠ 0 ↔ x.getLsbD 4 = true := by
  have hbit : (0x10 : Byte) = BitVec.twoPow 8 4 := rfl
  rw [hbit, BitVec.and_twoPow]
  split_ifs with h
  · exact iff_of_true (by decide) h
  · exact iff_of_false (fun hne => hne rfl) h

theorem add8Flags_h_eq_xor (x y : Byte) :
    (add8Flags x y).h = decide ((x ^^^ y ^^^ add8Result x y) &&& 0x10 ≠ 0) := by
  simp only [and_bit4_ne_zero_iff, add8Result_eq_add, xor_add_getLsbD x y (i := 4) (by decide),
    add8Flags_h_eq_carry, Bool.decide_eq_true]

/-! ### The adder on equal operands (41_add.md R108) -/

theorem add8Result_self (x : Byte) : add8Result x x = x <<< 1 := by
  rw [add8Result_eq_add, BitVec.shiftLeft_eq_mul_twoPow]
  exact (mul_two x).symm

/-- Doubling carries a bit into the place above it, whatever comes in from below. -/
theorem carry_succ_self (i : Nat) (x : Byte) : BitVec.carry (i + 1) x x false = x.getLsbD i := by
  rw [BitVec.carry_succ, Bool.atLeastTwo]
  cases x.getLsbD i <;> rfl

theorem add8Flags_self (x : Byte) :
    add8Flags x x = ⟨decide (x &&& 0x7F = 0), false, x.getLsbD 3, x.getLsbD 7⟩ := by
  have hz : add8Result x x = 0 ↔ x &&& 0x7F = 0 := by
    rw [add8Result_eq_zero_iff, ← BitVec.toNat_inj, toNat_and_lowMask x (k := 7) rfl]
    change _ ↔ _ = 0
    omega
  have hh : (add8Flags x x).h = x.getLsbD 3 := (add8Flags_h_eq_carry x x).trans (carry_succ_self 3 x)
  have hc : (add8Flags x x).c = x.getLsbD 7 := (add8Flags_c_eq_carry x x).trans (carry_succ_self 7 x)
  rw [← hh, ← hc, ← decide_eq_decide.2 hz]
  rfl

/-! ### The ADD instructions (41_add.md R101) -/

theorem added_eq_adder (s : State) (v : Byte) :
    added s v = { s with a := add8Result s.a v, f := add8Flags s.a v, pc := s.pc + 1 } := by
  rw [added, add8Flags_eq_sums]

/-- Every row that adds a register runs in every state; `r` is read before A is written. -/
theorem exec_add {i : Instr} {r : Reg} (h : i.instruction = some (.add r)) (s : State) :
    exec i s = .next (added s (s.getReg r)) := by
  rw [exec_eq_finish h, added_eq_adder]
  exact finish_next_iff.2 ⟨_, _, executeAdd_ok_iff.2 ⟨rfl, rfl⟩, rfl⟩

/-! ### The statements -/

/-- Settles O27: carry and half-carry by the sums, by the top bit of each sum, and half-carry by the carry that the
exclusive or leaves in bit 4. -/
theorem adderResultAndFlags : Obligations.AdderResultAndFlags := fun x y =>
  ⟨add8Result_toNat x y, rfl, rfl, rfl, rfl, add8Flags_c_eq_result_lt x y, add8Flags_c_eq_testBit x y,
    add8Flags_h_eq_testBit x y, add8Flags_h_eq_xor x y⟩

/-- Settles O28, by the one rule for every ADD. -/
theorem addWritesAAndAllFlags : Obligations.AddWritesAAndAllFlags := fun s =>
  ⟨exec_add (r := .b) rfl s, exec_add (r := .c) rfl s, exec_add (r := .d) rfl s, exec_add (r := .e) rfl s,
    exec_add (r := .h) rfl s, exec_add (r := .l) rfl s, exec_add (r := .a) rfl s⟩

/-- Settles O29: the rule for ADD with the adder on equal operands, whose carries are the operand's own bits. -/
theorem addAADoublesA : Obligations.AddAADoublesA := by
  intro s
  rw [exec_add (r := .a) rfl s, added_eq_adder]
  simp only [State.getReg, add8Result_self, add8Flags_self]

end Sys2Proof.Proofs
end

section
/-! SUPPORT. The statements of 42_ld.md. The facts they rest on come first, each said once: the value each kind of
source gives, how a load into a register and a store at HL end, and when a load faults. -/

namespace Sys2Proof.Proofs

open Sys2Proof.Machine Sys2Proof.Claims

/-! ### The value of a source (40_step_cycle.md R90) -/

theorem readSource_memHL {s : State} (h : s.hl ≠ 0xFFFF) : readSource .memHL s = .ok (byteAt s s.hl) :=
  memRead_of_ne_top h s

theorem readSource_imm8 {s : State} (h : s.pc ≠ 0xFFFE) : readSource .imm8 s = .ok (byteAt s (s.pc + 1)) :=
  memRead_of_ne_top (pc_add_one_ne_top h) s

/-! ### How a load ends once its source is read (42_ld.md R120) -/

theorem finish_ld {tgt : LoadTarget} {src : LoadSource} {s u : State} {v : Byte} (hsrc : readSource src s = .ok v)
    (htgt : writeTarget tgt v s = .ok u) :
    finish (execute (.ld tgt src) s) = .next (commit u (s.pc + loadAdvance src)) :=
  finish_next_iff.2 ⟨u, _, executeLd_ok_iff.2 ⟨v, hsrc, htgt, rfl⟩, rfl⟩

theorem finish_ld_reg {src : LoadSource} {s : State} {v : Byte} (h : readSource src s = .ok v) (t : Reg) :
    finish (execute (.ld (.reg t) src) s) = .next { s.setReg t v with pc := s.pc + loadAdvance src } :=
  finish_ld h rfl

theorem finish_ld_memHL {src : LoadSource} {s : State} {v : Byte} (h : readSource src s = .ok v)
    (hhl : s.hl ≠ 0xFFFF) :
    finish (execute (.ld .memHL src) s) =
      .next (commit (s.setMem (Memory.write s.mem s.hl.toNat v)) (s.pc + loadAdvance src)) :=
  finish_ld h (writeTarget_ok_iff.2 (.inr ⟨rfl, (backed_iff s.hl).2 hhl, rfl⟩))

theorem storedOnly_commit_write {s : State} {addr : Word} (h : addr ≠ 0xFFFF) (v : Byte) (w : Word) :
    StoredOnly s (commit (s.setMem (Memory.write s.mem addr.toNat v)) w) addr v w :=
  ⟨memRead_write_same s ((backed_iff addr).2 h) s.mem v, fun _ hk => memRead_write_other s hk v, by simp, rfl, rfl⟩

/-- A store at a backed HL changes that one byte, and PC. -/
theorem exec_store {i : Instr} {src : LoadSource} {s : State} {v : Byte} (hi : i.instruction = some (.ld .memHL src))
    (h : readSource src s = .ok v) (hhl : s.hl ≠ 0xFFFF) :
    ∃ u, exec i s = .next u ∧ StoredOnly s u s.hl v (s.pc + loadAdvance src) :=
  ⟨_, (exec_eq_finish hi s).trans (finish_ld_memHL h hhl), storedOnly_commit_write hhl v _⟩

/-- A load faults when its source or its target is at 0xFFFF. -/
theorem finish_ld_fault {tgt : LoadTarget} {src : LoadSource} {s : State}
    (h : Unbacked (sourceAccesses src s) ∨ Unbacked (targetAccesses tgt s)) :
    finish (execute (.ld tgt src) s) = .fault (.addressFault 0xFFFF) :=
  finish_fault_iff.2 (execute_error_iff_unbacked.2 ⟨(unbacked_append _ _).2 h, rfl⟩)

theorem unbacked_source_memHL {s : State} (h : s.hl = 0xFFFF) : Unbacked (sourceAccesses .memHL s) :=
  (unbacked_cons _ _).2 (.inl h)

theorem unbacked_target_memHL {s : State} (h : s.hl = 0xFFFF) : Unbacked (targetAccesses .memHL s) :=
  (unbacked_cons _ _).2 (.inl h)

theorem unbacked_source_imm8 {s : State} (h : s.pc = 0xFFFE) : Unbacked (sourceAccesses .imm8 s) :=
  (unbacked_cons _ _).2 (.inl (by rw [accessAddr, h]; rfl))

/-! ### Writing back the byte read (42_ld.md R126) -/

/-- In canonical form, writing an address the byte it holds changes nothing. -/
theorem Memory.write_read_self {m : Memory} (h : Memory.wf m) {addr : Nat} (ha : addr < Config.memSize) :
    Memory.write m addr (Memory.read m addr) = m := by
  refine canonicalMemoriesAreEqualWhenTheyReadAlike _ _ (Memory.wf_write h ha _) h fun k _ => ?_
  rw [Memory.read_write]
  split_ifs with hk
  · rw [hk]
  · rfl

/-! ### The statements -/

/-- Settles O31: the byte at HL is read before the register is written, so a target H or L does not move it. -/
theorem loadRegisterFromMemory : Obligations.LoadRegisterFromMemory := by
  intro i t s hi
  rw [exec_eq_finish hi]
  exact ⟨fun hhl => finish_ld_reg (readSource_memHL hhl) t,
    fun hhl => finish_ld_fault (.inl (unbacked_source_memHL hhl))⟩

/-- Settles O32: the register is a source in every state, so only the store at HL can fault. -/
theorem loadMemoryFromRegister : Obligations.LoadMemoryFromRegister := by
  intro i r s hi
  refine ⟨exec_store hi rfl, fun hhl => ?_⟩
  rw [exec_eq_finish hi]
  exact finish_ld_fault (.inr (unbacked_target_memHL hhl))

/-- Settles O33: PC + 1 is backed unless PC is 0xFFFE. -/
theorem loadRegisterFromImmediate : Obligations.LoadRegisterFromImmediate := by
  intro i t s hi
  rw [exec_eq_finish hi]
  exact ⟨fun hpc => finish_ld_reg (readSource_imm8 hpc) t,
    fun hpc => finish_ld_fault (.inl (unbacked_source_imm8 hpc))⟩

/-- Settles O34: the read at PC + 1 and the store at HL are the two accesses that can fault. -/
theorem loadMemoryFromImmediate : Obligations.LoadMemoryFromImmediate := by
  intro s
  refine ⟨fun hpc => exec_store rfl (readSource_imm8 hpc), fun h => ?_⟩
  rw [exec_eq_finish (i := .ldMemImm) rfl]
  exact finish_ld_fault (h.imp unbacked_source_imm8 unbacked_target_memHL)

/-- Settles O35: the byte read at HL is written back to HL. -/
theorem memoryToMemoryLoadHasNoNetEffect : Obligations.MemoryToMemoryLoadHasNoNetEffect := by
  intro s
  refine ⟨fun hhl hwf => ?_, fun hhl => finish_ld_fault (.inl (unbacked_source_memHL hhl))⟩
  have hsame := Memory.write_read_self hwf (backed_lt ((backed_iff s.hl).2 hhl))
  rw [finish_ld_memHL (readSource_memHL hhl) hhl, byteAt, hsame]
  rfl

/-- Settles O30: a register is a source and a target in every state. -/
theorem loadRegisterFromRegister : Obligations.LoadRegisterFromRegister := fun _ t _ s hi =>
  (exec_eq_finish hi s).trans (finish_ld_reg rfl t)

end Sys2Proof.Proofs
end

section
/-! SUPPORT. The statements of 43_jp.md. The facts they rest on come first, each said once: when the operand of a jump
can be read and when it cannot, and how a taken and an untaken jump end. -/

namespace Sys2Proof.Proofs

open Sys2Proof.Machine Sys2Proof.Claims

/-! ### The operand of a jump (30_encoding.md R66) -/

/-- Both operand bytes are backed unless PC is 0xFFFD or 0xFFFE; at 0xFFFF they are at 0x0000 and 0x0001. -/
theorem readImm16_eq_jumpTarget {s : State} (hd : s.pc ≠ 0xFFFD) (he : s.pc ≠ 0xFFFE) :
    readImm16 s = .ok (jumpTarget s) :=
  readImm16_ok_iff.2 ⟨_, _, memRead_of_ne_top (pc_add_one_ne_top he) s, memRead_of_ne_top (pc_add_two_ne_top hd) s, rfl⟩

/-- At 0xFFFD the high byte of the operand would be at 0xFFFF, at 0xFFFE the low byte (R142). -/
theorem readImm16_fault {s : State} (h : s.pc = 0xFFFD ∨ s.pc = 0xFFFE) :
    readImm16 s = .error (.addressFault 0xFFFF) := by
  refine readImm16_error_iff_unbacked.2 ⟨?_, rfl⟩
  rcases h with h | h <;> simp [h, accessAddr]

/-! ### How a jump ends (43_jp.md R141) -/

section
variable {i : Instr} {c : JumpCond} {s : State} (hi : i.instruction = some (.jp c))
include hi

theorem exec_taken_jump (hc : condHolds c s.f = true) (hd : s.pc ≠ 0xFFFD) (he : s.pc ≠ 0xFFFE) :
    exec i s = .next { s with pc := jumpTarget s } :=
  (exec_eq_finish hi s).trans
    (finish_next_iff.2 ⟨s, _, executeJp_ok_iff.2 ⟨rfl, .inl ⟨hc, readImm16_eq_jumpTarget hd he⟩⟩, rfl⟩)

/-- An untaken jump reads no operand, so it ends alike wherever it stands (R148). -/
theorem exec_untaken_jump (hc : condHolds c s.f = false) : exec i s = .next { s with pc := s.pc + 3 } :=
  (exec_eq_finish hi s).trans (finish_next_iff.2 ⟨s, _, executeJp_ok_iff.2 ⟨rfl, .inr ⟨hc, rfl⟩⟩, rfl⟩)

theorem exec_taken_jump_fault (hc : condHolds c s.f = true) (hpc : s.pc = 0xFFFD ∨ s.pc = 0xFFFE) :
    exec i s = .fault (.addressFault 0xFFFF) :=
  (exec_eq_finish hi s).trans (finish_fault_iff.2 (executeJp_error_iff.2 ⟨hc, readImm16_fault hpc⟩))

end

/-! ### The statements -/

/-- Settles O36: each condition is a flag or its negation, and each jump follows the one rule for its outcome. -/
theorem jumpGoesToTargetOrFallsThrough : Obligations.JumpGoesToTargetOrFallsThrough := fun _ =>
  ⟨fun hd he =>
    ⟨exec_taken_jump (c := .always) rfl rfl hd he,
      fun hz => exec_taken_jump (c := .notZero) rfl (congrArg not hz) hd he,
      fun hz => exec_taken_jump (c := .zero) rfl hz hd he,
      fun hc => exec_taken_jump (c := .notCarry) rfl (congrArg not hc) hd he,
      fun hc => exec_taken_jump (c := .carry) rfl hc hd he⟩,
    fun hz => exec_untaken_jump (c := .notZero) rfl (congrArg not hz),
    fun hz => exec_untaken_jump (c := .zero) rfl hz,
    fun hc => exec_untaken_jump (c := .notCarry) rfl (congrArg not hc),
    fun hc => exec_untaken_jump (c := .carry) rfl hc⟩

/-- Settles O37, by the one rule for a taken jump whose operand runs into 0xFFFF. -/
theorem takenJumpFaultsAtTheTop : Obligations.TakenJumpFaultsAtTheTop := fun _ hpc =>
  ⟨exec_taken_jump_fault (c := .always) rfl rfl hpc,
    fun hz => exec_taken_jump_fault (c := .notZero) rfl (congrArg not hz) hpc,
    fun hz => exec_taken_jump_fault (c := .zero) rfl hz hpc,
    fun hc => exec_taken_jump_fault (c := .notCarry) rfl (congrArg not hc) hpc,
    fun hc => exec_taken_jump_fault (c := .carry) rfl hc hpc⟩

/-- Settles O26: no case of Cond mentions N or H. -/
theorem jumpConditionsReadZeroAndCarryOnly : Obligations.JumpConditionsReadZeroAndCarryOnly := by
  refine fun f => ⟨rfl, rfl, rfl, rfl, rfl, fun c n h => ?_⟩
  cases c <;> rfl

end Sys2Proof.Proofs
end

section
/-! SUPPORT. The statements of 60_exceptions.md. The facts they rest on come first, each said once: when a Step ends
with a fault and with which of the two, and the states in which an access of Fetch or of Execute goes to 0xFFFF. -/

namespace Sys2Proof.Proofs

open Sys2Proof.Machine Sys2Proof.Claims

/-! ### When a Step ends with a fault (60_exceptions.md R160) -/

/-- A Step faults in Fetch, at Decode, or in Execute of the fetched instruction. -/
theorem step_fault_iff {s : State} {flt : Fault} :
    step s = .fault flt ↔ fetch s = .error flt ∨
      (∃ got, fetch s = .ok got ∧ decodeOpcode got.op got.isPrefixed = none ∧
        flt = .unrecognizedOpcode got.op got.isPrefixed) ∨
      ∃ ins, fetchedInstruction s = some ins ∧ execute ins s = .error flt := by
  constructor
  · intro h
    rcases step_fault_cases h with hf | hd | ⟨b, i, ins, hf, hd, hi, he⟩
    · exact .inl hf
    · exact .inr (.inl hd)
    · exact .inr (.inr ⟨ins, fetchedInstruction_some_iff.2 ⟨b, i, hf, hd, hi⟩, he⟩)
  · rintro (hf | ⟨got, hf, hd, rfl⟩ | ⟨ins, hi, he⟩)
    · exact step_of_fetch_error hf
    · exact step_of_not_fetched (by rw [fetchedInstruction_of_fetch hf, hd, Option.bind_none]) hf
    · rw [step_of_fetched hi, finish_fault_iff, he]

/-- Fetch and Execute raise no fault but AddressFault, so UnrecognizedOpcode comes from Decode alone. -/
theorem step_unrecognizedOpcode_iff {s : State} {op : Byte} {isPrefixed : Bool} :
    step s = .fault (.unrecognizedOpcode op isPrefixed) ↔
      fetch s = .ok ⟨op, isPrefixed⟩ ∧ decodeOpcode op isPrefixed = none := by
  simp only [step_fault_iff, fetch_error_iff_unbacked, execute_error_iff_unbacked, reduceCtorEq, and_false,
    exists_false, false_or, or_false, Fault.unrecognizedOpcode.injEq]
  constructor
  · rintro ⟨got, hf, hd, rfl, rfl⟩
    exact ⟨hf, hd⟩
  · rintro ⟨hf, hd⟩
    exact ⟨_, hf, hd, rfl, rfl⟩

/-- Decode raises no AddressFault, so it comes from an access of Fetch or of Execute. -/
theorem step_addressFault_iff {s : State} {addr : Word} :
    step s = .fault (.addressFault addr) ↔ addr = 0xFFFF ∧
      (Unbacked (fetchAccesses s) ∨
        ∃ ins, fetchedInstruction s = some ins ∧ Unbacked (executeAccesses ins s)) := by
  simp only [step_fault_iff, fetch_error_iff_unbacked, execute_error_iff_unbacked, reduceCtorEq, and_false,
    exists_false, false_or, Fault.addressFault.injEq, ← and_assoc, exists_and_right, ← or_and_right]
  exact and_comm

/-! ### The states in which an access goes to 0xFFFF (60_exceptions.md R163) -/

@[simp] theorem pc_add_one_eq_top_iff {p : Word} : p + 1#16 = 65535#16 ↔ p = 65534#16 :=
  eq_sub_iff_add_eq.symm

@[simp] theorem pc_add_two_eq_top_iff {p : Word} : p + 2#16 = 65535#16 ↔ p = 65533#16 :=
  eq_sub_iff_add_eq.symm

theorem unbacked_fetchAccesses_iff {s : State} :
    Unbacked (fetchAccesses s) ↔ s.pc = 0xFFFF ∨ (s.pc = 0xFFFE ∧ byteAt s 0xFFFE = 0xCB) := by
  have hprefix : s.pc = 0xFFFE → (memRead s s.pc = .ok Config.prefixByte ↔ byteAt s 0xFFFE = 0xCB) := fun hpc => by
    rw [hpc]
    exact memRead_ok_iff.trans (and_iff_right rfl)
  rw [fetchAccesses, ← and_congr_right hprefix]
  split_ifs with h <;> simp [h, accessAddr]

theorem unbacked_sourceAccesses_iff {src : LoadSource} {s : State} :
    Unbacked (sourceAccesses src s) ↔ (src = .imm8 ∧ s.pc = 0xFFFE) ∨ (src = .memHL ∧ s.hl = 0xFFFF) := by
  cases src <;> simp [sourceAccesses, accessAddr]

theorem unbacked_targetAccesses_iff {tgt : LoadTarget} {s : State} :
    Unbacked (targetAccesses tgt s) ↔ tgt = .memHL ∧ s.hl = 0xFFFF := by
  cases tgt <;> simp [targetAccesses, accessAddr]

theorem unbacked_executeAccesses_iff {ins : Instruction} {s : State} :
    Unbacked (executeAccesses ins s) ↔
      ((∃ t, ins = .ld t .imm8) ∧ s.pc = 0xFFFE) ∨
        ((∃ c, ins = .jp c ∧ condHolds c s.f = true) ∧ (s.pc = 0xFFFE ∨ s.pc = 0xFFFD)) ∨
        ((∃ t, ins = .ld t .memHL) ∧ wordOf s.h s.l = 0xFFFF) ∨
        ((∃ src, ins = .ld .memHL src) ∧ wordOf s.h s.l = 0xFFFF) := by
  cases ins with
  | add r => simp [executeAccesses]
  | ld tgt src =>
    rw [executeAccesses, unbacked_append, unbacked_sourceAccesses_iff, unbacked_targetAccesses_iff]
    simp [or_assoc, State.hl, State.getPair, pairHi, pairLo, State.getReg]
  | jp c =>
    rw [executeAccesses]
    split_ifs with hc <;> simp [hc, accessAddr]

/-! ### The statements -/

/-- Settles O39: Decode raises it, for the byte and the mark Fetch gives, and no byte after 0xCB has an entry. -/
theorem unrecognizedOpcodeRecordsTheByte : Obligations.UnrecognizedOpcodeRecordsTheByte := by
  intro s op isPrefixed
  rw [step_unrecognizedOpcode_iff, fetch_ok_iff]
  constructor
  · rintro ⟨⟨b, hb, hne, hgot⟩ | ⟨hb, b, hop, hgot⟩, hd⟩ <;> cases hgot
    · exact .inl ⟨rfl, hb, hne, hd⟩
    · exact .inr ⟨rfl, hb, hop⟩
  · rintro (⟨rfl, hb, hne, hd⟩ | ⟨rfl, hb, hop⟩)
    · exact ⟨.inl ⟨op, hb, hne, rfl⟩, hd⟩
    · exact ⟨.inr ⟨hb, op, hop, rfl⟩, decodeOpcode_prefixed op⟩

/-- Settles O40: the states in which an access of Fetch, or of Execute of the fetched instruction, goes to 0xFFFF. -/
theorem addressFaultExactlyInTheListedStates : Obligations.AddressFaultExactlyInTheListedStates := by
  intro s addr
  simp only [step_addressFault_iff, unbacked_fetchAccesses_iff, unbacked_executeAccesses_iff, or_assoc]

/-- Settles O41: a Step ends in a next state or in a fault, and so does every row, that of 0xCB in its fault. -/
theorem nothingIsRefused : Obligations.NothingIsRefused := by
  constructor
  · intro s r h
    rcases step_next_or_fault s with ⟨t, hs⟩ | ⟨flt, hs⟩ <;> cases hs.symm.trans h
  · intro i s r
    cases hi : i.instruction with
    | some ins =>
      rw [exec_eq_finish hi]
      exact finish_not_refused _ r
    | none =>
      cases i with
      | prefixCB op => simp [prefixMarkerStops op s]
      | _ => cases hi

/-- Settles O42: two of the states listed for AddressFault, and one where the byte read at 0xFFFE has no entry. -/
theorem faultOrderAtTheTopOfMemory : Obligations.FaultOrderAtTheTopOfMemory := by
  refine fun s => ⟨fun hpc => ?_, fun hpc hb => ?_, fun hpc hb => ?_⟩
  · exact (addressFaultExactlyInTheListedStates s _).2 ⟨rfl, .inl hpc⟩
  · exact (addressFaultExactlyInTheListedStates s _).2 ⟨rfl, .inr (.inl ⟨hpc, hb⟩)⟩
  · refine (unrecognizedOpcodeRecordsTheByte s _ _).2 (.inl ⟨rfl, ?_, by decide, rfl⟩)
    rw [hpc]
    exact memRead_ok_iff.2 ⟨rfl, hb⟩

/-- Settles O45, by writing out the digits of each byte. -/
theorem diagnosticTextOfTheExamples : Obligations.DiagnosticTextOfTheExamples :=
  ⟨rfl, rfl, rfl, rfl, fun _ => rfl⟩

end Sys2Proof.Proofs
end

section
/-! SUPPORT. The statements of 70_reset_and_hazards.md. The facts they rest on come first, each said once: when a Step
succeeds, what the program's obligations for a state say of the accesses, and where a write stands among the accesses
of a Step. -/

namespace Sys2Proof.Proofs

open Sys2Proof.Machine Sys2Proof.Claims

/-! ### What keeps a run going (70_reset_and_hazards.md R196) -/

theorem finish_next_exists_iff {x : Executed} : (∃ t, finish x = .next t) ↔ ∀ flt, x ≠ .error flt := by
  rcases x with flt | done <;> simp [finish, raise]

/-- A Step succeeds where an instruction is fetched and each access of its Execute is backed. -/
theorem step_next_exists_iff {s : State} :
    (∃ t, step s = .next t) ↔ ∃ ins, fetchedInstruction s = some ins ∧ ¬ Unbacked (executeAccesses ins s) := by
  have hexec (ins : Instruction) :
      (∃ t, finish (execute ins s) = .next t) ↔ ¬ Unbacked (executeAccesses ins s) := by
    simp [finish_next_exists_iff, execute_error_iff_unbacked]
  constructor
  · rintro ⟨t, hstep⟩
    obtain ⟨ins, -, -, hf, -, -⟩ := step_next_fetched hstep
    exact ⟨ins, hf, (hexec ins).1 ⟨t, step_of_fetched hf ▸ hstep⟩⟩
  · rintro ⟨ins, hf, hback⟩
    rw [step_of_fetched hf]
    exact (hexec ins).2 hback

/-- R196 (b): what the program owes for an instruction's operands is that no access of Execute goes to 0xFFFF. -/
theorem operandsBacked_iff {ins : Instruction} {s : State} :
    Safety.operandsBacked ins s = true ↔ ¬ Unbacked (executeAccesses ins s) := by
  cases ins with
  | add r => simp [Safety.operandsBacked, executeAccesses]
  | ld tgt src =>
    rw [executeAccesses, unbacked_append, unbacked_sourceAccesses_iff, unbacked_targetAccesses_iff]
    cases src <;> cases tgt <;> simp [Safety.operandsBacked]
  | jp c =>
    rw [executeAccesses]
    cases hc : condHolds c s.f <;> simp [Safety.operandsBacked, hc, accessAddr, and_comm]

/-- R196 (a) says that an instruction is fetched, and (b) speaks of that instruction. -/
theorem keepsRunning_iff {s : State} :
    Safety.keepsRunning s = true ↔
      ∃ ins, fetchedInstruction s = some ins ∧ Safety.operandsBacked ins s = true := by
  unfold Safety.keepsRunning fetchedInstruction
  by_cases hpc : s.pc = 65535#16
  · simp [hpc]
  · rw [memRead_of_ne_top hpc]
    dsimp only
    cases decodeOpcode (Memory.read s.mem s.pc.toNat) false with
    | none => simp
    | some i => cases hi : i.instruction <;> simp [hpc, hi]

/-! ### How many accesses a Step makes, and where a write stands among them (70_reset_and_hazards.md R194, R198) -/

theorem fetchAccesses_of_fetched {s : State} {ins : Instruction} (h : fetchedInstruction s = some ins) :
    fetchAccesses s = [.read s.pc] := by
  refine if_neg fun hb => ?_
  simp [fetchedInstruction, hb, decodeOpcode_prefixByte] at h

theorem fetchAccesses_length_le (s : State) : (fetchAccesses s).length ≤ 2 := by
  unfold fetchAccesses
  split_ifs <;> simp

theorem executeAccesses_length_le (ins : Instruction) (s : State) : (executeAccesses ins s).length ≤ 2 := by
  cases ins with
  | add r => simp [executeAccesses]
  | ld tgt src => cases src <;> cases tgt <;> simp [executeAccesses, sourceAccesses, targetAccesses]
  | jp c =>
    rw [executeAccesses]
    split_ifs <;> simp

theorem stepAccesses_length_le (s : State) : (stepAccesses s).length ≤ 3 := by
  cases hi : fetchedInstruction s with
  | none =>
    rw [stepAccesses_of_not_fetched hi]
    exact (fetchAccesses_length_le s).trans (by decide)
  | some ins =>
    rw [stepAccesses_of_fetched hi, fetchAccesses_of_fetched hi]
    exact Nat.succ_le_succ (executeAccesses_length_le ins s)

/-- A load writes its target after reading its source, and no other instruction writes. -/
theorem write_not_mem_dropLast_executeAccesses (ins : Instruction) (s : State) (addr : Word) :
    .write addr ∉ (executeAccesses ins s).dropLast := by
  cases ins with
  | add r => simp [executeAccesses]
  | ld tgt src =>
    have hsrc := write_not_mem_sourceAccesses src s addr
    cases tgt with
    | reg r => simpa [executeAccesses, targetAccesses] using mt List.mem_of_mem_dropLast hsrc
    | memHL => simpa [executeAccesses, targetAccesses] using hsrc
  | jp c =>
    rw [executeAccesses]
    split_ifs <;> simp

/-- The accesses of Fetch are reads and come before those of Execute. -/
theorem write_not_mem_dropLast_stepAccesses (s : State) (addr : Word) : .write addr ∉ (stepAccesses s).dropLast := by
  have hfetch := write_not_mem_fetchAccesses s addr
  cases hi : fetchedInstruction s with
  | none =>
    rw [stepAccesses_of_not_fetched hi]
    exact mt List.mem_of_mem_dropLast hfetch
  | some ins =>
    rw [stepAccesses_of_fetched hi]
    by_cases hnil : executeAccesses ins s = []
    · rw [hnil, List.append_nil]
      exact mt List.mem_of_mem_dropLast hfetch
    · rw [List.dropLast_append_of_ne_nil hnil, List.mem_append]
      exact not_or.2 ⟨hfetch, write_not_mem_dropLast_executeAccesses ins s addr⟩

/-- What stands in a list but not before its last place has nothing after it. -/
theorem eq_nil_of_not_mem_dropLast {α : Type} {x : α} {before after : List α}
    (h : x ∉ (before ++ x :: after).dropLast) : after = [] := by
  by_contra hne
  simp [List.dropLast_append_of_ne_nil, List.dropLast_cons_of_ne_nil hne] at h

/-! ### The statements -/

/-- Settles O43: both sides say that an instruction is fetched and that no access of its Execute goes to 0xFFFF. -/
theorem stepSucceedsExactlyWhenTheProgramKeepsR196 : Obligations.StepSucceedsExactlyWhenTheProgramKeepsR196 := by
  intro s
  simp only [step_next_exists_iff, keepsRunning_iff, operandsBacked_iff]

/-- Settles O51: no write stands before the last access. -/
theorem atMostThreeAccessesTheWriteLast : Obligations.AtMostThreeAccessesTheWriteLast := by
  refine fun s => ⟨stepAccesses_length_le s, fun before after addr h => ?_⟩
  exact eq_nil_of_not_mem_dropLast (h ▸ write_not_mem_dropLast_stepAccesses s addr)

/-- Settles O5: every backed address reads as the reset byte, since none is listed. -/
theorem constructZeroesEverything : Obligations.ConstructZeroesEverything :=
  ⟨reset_getReg, rfl, rfl, rfl, fun _ haddr => memRead_of_ne_top (ne_top_of_toNat_le haddr) State.reset⟩

/-- Settles O10: the memory after Construct lists nothing. -/
theorem resetMemoryIsCanonical : Obligations.ResetMemoryIsCanonical := Memory.wf_nil

/-- Settles O44: the byte at PC is then 0x00, which has no entry. -/
theorem firstStepAfterConstructFaults : Obligations.FirstStepAfterConstructFaults :=
  (unrecognizedOpcodeRecordsTheByte _ _ _).2 (.inl ⟨rfl, rfl, by decide, rfl⟩)

end Sys2Proof.Proofs
end
